-- ==== Sys2Proof/Word.lean ====
section
/-! DEFINITION. The words, bytes, symbols and trits of T3CORE (00_scope.md R7, R9, R10). -/

namespace Sys2Proof

/-- A command word or a response word: 32 bits, bit 0 the least significant (R7, R9). -/
abbrev Word := BitVec 32

/-- The data part of a response, bits 27..0 (R75). -/
abbrev Data := BitVec 28

/-- A byte: of a byte-wide link (R54), or one base-243 group (R104). -/
abbrev Byte := BitVec 8

/-- An unbalanced trit, 0, 1 or 2 (R10). `+` and `-` of this type are the digit-wise operations mod 3. -/
abbrev Trit := Fin 3

/-- A symbol: an element of GF(27) in its integer form 0..26 (R10). Only the type's order and its
literals are used: the field operations are those of Machine/Field.lean, not this type's `+` and `*`. -/
abbrev Sym := Fin 27

end Sys2Proof
end

