-- ==== Sys2Proof/Syntax.lean ====
section
/-! DEFINITION. The 33 commands of T3CORE, one constructor per row of spec/opcode_table.json, in the table's order.
A constructor carries the operand fields of its format (30_encoding.md R71) as raw bits of their width; operand
values the format admits and the command refuses are part of the syntax, because the command's own rule checks
them (R78, R81). -/

namespace Sys2Proof

/-- A T3CORE command (30_encoding.md R78). A lane vector holds lane i at index i. -/
inductive Instr where
  /-- NOP (R240), format Z. -/
  | nop
  /-- STAT.RD (R241), format Z. -/
  | statRd
  /-- STAT.CLR (R242), format Z. -/
  | statClr
  /-- RESET (R243), format Z. -/
  | reset
  /-- TRIT.B2U (R102), format T13. -/
  | tritB2u (t : Vector (BitVec 2) 13)
  /-- TRIT.U2B (R103), format T13. -/
  | tritU2b (t : Vector (BitVec 2) 13)
  /-- PACK243 (R105), format PK. -/
  | pack243 (k : BitVec 3) (t : Vector (BitVec 2) 5)
  /-- UNPK243 (R106), format UP. -/
  | unpk243 (k : BitVec 3) (byte : BitVec 8)
  /-- GF.ADD (R130), format G2. -/
  | gfAdd (a b : BitVec 5)
  /-- GF.SUB (R131), format G2: `a` is the minuend. -/
  | gfSub (a b : BitVec 5)
  /-- GF.MUL (R132), format G2. -/
  | gfMul (a b : BitVec 5)
  /-- GF.INV (R133), format G1. -/
  | gfInv (a : BitVec 5)
  /-- GF.POWA (R134), format GE. -/
  | gfPowa (e : BitVec 16)
  /-- BUF.WR (R244), format BW. -/
  | bufWr (buf : BitVec 3) (idx : BitVec 5) (sym : BitVec 5)
  /-- BUF.RD (R245), format BR. -/
  | bufRd (buf : BitVec 3) (idx : BitVec 5)
  /-- RS.CFG (R154), format CF. -/
  | rsCfg (p : BitVec 8)
  /-- RS.ENC (R155), format Z. -/
  | rsEnc
  /-- RS.SYN (R172), format Z. -/
  | rsSyn
  /-- RS.BM (R174), format Z. -/
  | rsBm
  /-- RS.CHIEN (R176), format Z. -/
  | rsChien
  /-- RS.FORNEY (R180), format Z. -/
  | rsForney
  /-- RS.DEC (R181), format Z. -/
  | rsDec
  /-- CRC.INIT (R223), format Z. -/
  | crcInit
  /-- CRC.TRIT (R224), format CT. -/
  | crcTrit (t : BitVec 2)
  /-- CRC.SYM (R225), format G1. -/
  | crcSym (a : BitVec 5)
  /-- CRC.FIN (R226), format Z. -/
  | crcFin
  /-- CRC.RD (R227), format Z. -/
  | crcRd
  /-- PIX.LD (R204), format PX. -/
  | pixLd (n : BitVec 1) (y : BitVec 9) (cb cr : BitVec 8)
  /-- PIX.RD (R205), format PR. -/
  | pixRd (n : BitVec 1)
  /-- PIX.PACK2 (R206), format Z. -/
  | pixPack2
  /-- PIX.PACK1 (R207), format Z. -/
  | pixPack1
  /-- PIX.UNPK2 (R208), format Z. -/
  | pixUnpk2
  /-- PIX.UNPK1 (R209), format Z. -/
  | pixUnpk1
deriving DecidableEq, Repr

end Sys2Proof
end

