-- ==== Sys2Proof/Decode.lean ====
section
/-! DEFINITION. Decoding a command word (30_encoding.md R70, R71, R78, R79, R81), the byte-wide link (20_memory.md
R54), and the encoder written from the same tables. Decoding reads no state (R81) and no mode changes it (R80). -/

namespace Sys2Proof

/-- Why a command is not decoded. The first two are the spec's IllegalCommand (R79); the third is a byte-wide
link that holds fewer than the four bytes of a command. -/
inductive DecodeError where
  /-- No row of R78 has the word's opcode (R79 (a), R81 step 1). -/
  | unassignedOpcode
  /-- A must-be-zero bit of the opcode's format is set (R79 (b), R81 step 2). -/
  | mustBeZero
  /-- The byte-wide link of R54 holds fewer than four bytes. -/
  | truncated
deriving DecidableEq, Repr

/-- The field of `n` bits whose lowest bit is bit `lo` (R9, R71). -/
def field (w : Word) (lo n : Nat) : BitVec n := w.extractLsb' lo n

/-- The 2-bit lanes of formats T13 and PK: lane i is bits 2i+1..2i (R71). -/
def lanes (w : Word) {n : Nat} : Vector (BitVec 2) n := Vector.ofFn fun i => field w (2 * i.val) 2

/-- The opcode, bits 31..26 (R70). -/
def opcode (w : Word) : BitVec 6 := field w 26 6

/-- A row of the opcode map (R78): a word selects it exactly when the word's bits under `mask` are `pattern`;
`build` takes the operand fields of the row's format (R71). -/
structure Row where
  mnemonic : String
  pattern : Word
  mask : Word
  build : Word → Instr

/-- The system rows of the opcode map (R78). -/
def systemRows : List Row :=
  [ ⟨"NOP", 0x00000000#32, 0xFFFFFFFF#32, fun _ => .nop⟩,
    ⟨"STAT.RD", 0x04000000#32, 0xFFFFFFFF#32, fun _ => .statRd⟩,
    ⟨"STAT.CLR", 0x08000000#32, 0xFFFFFFFF#32, fun _ => .statClr⟩,
    ⟨"RESET", 0x0C000000#32, 0xFFFFFFFF#32, fun _ => .reset⟩ ]

/-- The trit and packing rows of the opcode map (R78). -/
def tritRows : List Row :=
  [ ⟨"TRIT.B2U", 0x20000000#32, 0xFC000000#32, fun w => .tritB2u (lanes w)⟩,
    ⟨"TRIT.U2B", 0x24000000#32, 0xFC000000#32, fun w => .tritU2b (lanes w)⟩,
    ⟨"PACK243", 0x28000000#32, 0xFFFFE000#32, fun w => .pack243 (field w 10 3) (lanes w)⟩,
    ⟨"UNPK243", 0x2C000000#32, 0xFFFFF800#32, fun w => .unpk243 (field w 8 3) (field w 0 8)⟩ ]

/-- The field rows of the opcode map (R78). -/
def fieldRows : List Row :=
  [ ⟨"GF.ADD", 0x40000000#32, 0xFFFFFC00#32, fun w => .gfAdd (field w 0 5) (field w 5 5)⟩,
    ⟨"GF.SUB", 0x44000000#32, 0xFFFFFC00#32, fun w => .gfSub (field w 0 5) (field w 5 5)⟩,
    ⟨"GF.MUL", 0x48000000#32, 0xFFFFFC00#32, fun w => .gfMul (field w 0 5) (field w 5 5)⟩,
    ⟨"GF.INV", 0x4C000000#32, 0xFFFFFFE0#32, fun w => .gfInv (field w 0 5)⟩,
    ⟨"GF.POWA", 0x50000000#32, 0xFFFF0000#32, fun w => .gfPowa (field w 0 16)⟩ ]

/-- The buffer access rows of the opcode map (R78). -/
def bufferRows : List Row :=
  [ ⟨"BUF.WR", 0x60000000#32, 0xFC7FE0E0#32, fun w => .bufWr (field w 23 3) (field w 8 5) (field w 0 5)⟩,
    ⟨"BUF.RD", 0x64000000#32, 0xFC7FE0FF#32, fun w => .bufRd (field w 23 3) (field w 8 5)⟩ ]

/-- The Reed-Solomon rows of the opcode map (R78). -/
def rsRows : List Row :=
  [ ⟨"RS.CFG", 0x80000000#32, 0xFFFFFF00#32, fun w => .rsCfg (field w 0 8)⟩,
    ⟨"RS.ENC", 0x84000000#32, 0xFFFFFFFF#32, fun _ => .rsEnc⟩,
    ⟨"RS.SYN", 0x88000000#32, 0xFFFFFFFF#32, fun _ => .rsSyn⟩,
    ⟨"RS.BM", 0x8C000000#32, 0xFFFFFFFF#32, fun _ => .rsBm⟩,
    ⟨"RS.CHIEN", 0x90000000#32, 0xFFFFFFFF#32, fun _ => .rsChien⟩,
    ⟨"RS.FORNEY", 0x94000000#32, 0xFFFFFFFF#32, fun _ => .rsForney⟩,
    ⟨"RS.DEC", 0x98000000#32, 0xFFFFFFFF#32, fun _ => .rsDec⟩ ]

/-- The CRC rows of the opcode map (R78). -/
def crcRows : List Row :=
  [ ⟨"CRC.INIT", 0xA0000000#32, 0xFFFFFFFF#32, fun _ => .crcInit⟩,
    ⟨"CRC.TRIT", 0xA4000000#32, 0xFFFFFFFC#32, fun w => .crcTrit (field w 0 2)⟩,
    ⟨"CRC.SYM", 0xA8000000#32, 0xFFFFFFE0#32, fun w => .crcSym (field w 0 5)⟩,
    ⟨"CRC.FIN", 0xAC000000#32, 0xFFFFFFFF#32, fun _ => .crcFin⟩,
    ⟨"CRC.RD", 0xB0000000#32, 0xFFFFFFFF#32, fun _ => .crcRd⟩ ]

/-- The pixel rows of the opcode map (R78). -/
def pixelRows : List Row :=
  [ ⟨"PIX.LD", 0xC0000000#32, 0xFC000000#32, fun w => .pixLd (field w 25 1) (field w 16 9) (field w 8 8) (field w 0 8)⟩,
    ⟨"PIX.RD", 0xC4000000#32, 0xFFFFFFFE#32, fun w => .pixRd (field w 0 1)⟩,
    ⟨"PIX.PACK2", 0xC8000000#32, 0xFFFFFFFF#32, fun _ => .pixPack2⟩,
    ⟨"PIX.PACK1", 0xCC000000#32, 0xFFFFFFFF#32, fun _ => .pixPack1⟩,
    ⟨"PIX.UNPK2", 0xD0000000#32, 0xFFFFFFFF#32, fun _ => .pixUnpk2⟩,
    ⟨"PIX.UNPK1", 0xD4000000#32, 0xFFFFFFFF#32, fun _ => .pixUnpk1⟩ ]

/-- The opcode map of R78. -/
def opcodeTable : List Row :=
  systemRows ++ tritRows ++ fieldRows ++ bufferRows ++ rsRows ++ crcRows ++ pixelRows

/-- The row of an opcode, if one has it (R81 step 1). -/
def rowOf (op : BitVec 6) : Option Row := opcodeTable.find? fun r => opcode r.pattern == op

/-- Decode a command word (R81 steps 1 to 3). -/
def decode (w : Word) : Except DecodeError Instr :=
  match rowOf (opcode w) with
  | none => .error .unassignedOpcode
  | some r => if w &&& r.mask = r.pattern then .ok (r.build w) else .error .mustBeZero

/-- A word as a byte-wide link carries it: the least significant byte first (R54, decision D34). -/
def linkBytes (w : Word) : List Byte := [field w 0 8, field w 8 8, field w 16 8, field w 24 8]

/-- The first word on a byte-wide link, and the bytes after it (R54). -/
def wordOfLink : List Byte → Option (Word × List Byte)
  | b0 :: b1 :: b2 :: b3 :: rest => some (b3 ++ b2 ++ b1 ++ b0, rest)
  | _ => none

/-- Decode the first command on a byte-wide link: total on any bytes. -/
def decodeBytes (bs : List Byte) : Except DecodeError (Instr × List Byte) :=
  match wordOfLink bs with
  | none => .error .truncated
  | some (w, rest) =>
    match decode w with
    | .error e => .error e
    | .ok i => .ok (i, rest)

/-- The command word whose low `nbits` bits are those of `w` and whose other bits are zero. -/
def tableWord (nbits w : Nat) : Word := BitVec.ofNat 32 (w % 2 ^ nbits)

/-- The instruction the decoder reads from a row of the opcode table: its word laid out as the hardware's link
stores it (one 32-bit word, least significant byte first) and decoded. -/
def decodeTableWord (nbits w : Nat) : Option Instr :=
  match decodeBytes (linkBytes (tableWord nbits w)) with
  | .ok (i, _) => some i
  | .error _ => none

/-- A field put at the bits whose lowest is `lo`, the others zero (R71). -/
def place {n : Nat} (x : BitVec n) (lo : Nat) : Word := x.setWidth 32 <<< lo

/-- The thirteen lanes of format T13, lane i at bits 2i+1..2i (R71). -/
def placeLanes (t : Vector (BitVec 2) 13) : Word :=
  place t[12] 24 ||| place t[11] 22 ||| place t[10] 20 ||| place t[9] 18 ||| place t[8] 16 ||| place t[7] 14
    ||| place t[6] 12 ||| place t[5] 10 ||| place t[4] 8 ||| place t[3] 6 ||| place t[2] 4 ||| place t[1] 2
    ||| place t[0] 0

/-- The command word of an instruction (R71, R78): the opcode at bits 31..26 and the format's fields at theirs; the
bits shown as 0 stay zero. -/
def encode : Instr → Word
  | .nop => place 0x00#6 26
  | .statRd => place 0x01#6 26
  | .statClr => place 0x02#6 26
  | .reset => place 0x03#6 26
  | .tritB2u t => place 0x08#6 26 ||| placeLanes t
  | .tritU2b t => place 0x09#6 26 ||| placeLanes t
  | .pack243 k t =>
    place 0x0A#6 26 ||| place k 10 ||| place t[4] 8 ||| place t[3] 6 ||| place t[2] 4 ||| place t[1] 2 ||| place t[0] 0
  | .unpk243 k byte => place 0x0B#6 26 ||| place k 8 ||| place byte 0
  | .gfAdd a b => place 0x10#6 26 ||| place b 5 ||| place a 0
  | .gfSub a b => place 0x11#6 26 ||| place b 5 ||| place a 0
  | .gfMul a b => place 0x12#6 26 ||| place b 5 ||| place a 0
  | .gfInv a => place 0x13#6 26 ||| place a 0
  | .gfPowa e => place 0x14#6 26 ||| place e 0
  | .bufWr buf idx sym => place 0x18#6 26 ||| place buf 23 ||| place idx 8 ||| place sym 0
  | .bufRd buf idx => place 0x19#6 26 ||| place buf 23 ||| place idx 8
  | .rsCfg p => place 0x20#6 26 ||| place p 0
  | .rsEnc => place 0x21#6 26
  | .rsSyn => place 0x22#6 26
  | .rsBm => place 0x23#6 26
  | .rsChien => place 0x24#6 26
  | .rsForney => place 0x25#6 26
  | .rsDec => place 0x26#6 26
  | .crcInit => place 0x28#6 26
  | .crcTrit t => place 0x29#6 26 ||| place t 0
  | .crcSym a => place 0x2A#6 26 ||| place a 0
  | .crcFin => place 0x2B#6 26
  | .crcRd => place 0x2C#6 26
  | .pixLd n y cb cr => place 0x30#6 26 ||| place n 25 ||| place y 16 ||| place cb 8 ||| place cr 0
  | .pixRd n => place 0x31#6 26 ||| place n 0
  | .pixPack2 => place 0x32#6 26
  | .pixPack1 => place 0x33#6 26
  | .pixUnpk2 => place 0x34#6 26
  | .pixUnpk1 => place 0x35#6 26

end Sys2Proof
end

