-- ==== Sys2Proof/Machine/Field.lean ====
section
/-! DEFINITION. GF(27): the digits of a symbol, the constant tables EXP, LOG, MUL and INV (10_state.md R37;
41_gf27.md R125 to R127, R136) and the field operations every unit uses (R121, R122, R128; 00_scope.md R11).
The tables are written out as the spec prints them; that they agree with R123 and with one another is stated
and proved elsewhere, not assumed here. -/

namespace Sys2Proof.Machine

/-- The integer `n` as a symbol; used on table entries, which are below 27. -/
def toSym (n : Nat) : Sym := ⟨n % 27, Nat.mod_lt n (by decide)⟩

/-- `dig(a, i)`: digit i of a symbol, digit 0 the least significant (R10). -/
def dig (a : Sym) (i : Nat) : Trit := ⟨a.val / 3 ^ i % 3, Nat.mod_lt _ (by decide)⟩

/-- `sym(d0, d1, d2) = d0 + 3·d1 + 9·d2` (R10). -/
def symOf (d0 d1 d2 : Trit) : Sym := ⟨d0.val + 3 * d1.val + 9 * d2.val, by omega⟩

/-- a ⊕ b, digit-wise mod 3 (R121). -/
def gfAdd (a b : Sym) : Sym := symOf (dig a 0 + dig b 0) (dig a 1 + dig b 1) (dig a 2 + dig b 2)

/-- a ⊖ b, digit-wise mod 3 (R122). -/
def gfSub (a b : Sym) : Sym := symOf (dig a 0 - dig b 0) (dig a 1 - dig b 1) (dig a 2 - dig b 2)

/-- neg(a) = 0 ⊖ a (R122). -/
def gfNeg (a : Sym) : Sym := gfSub 0 a

/-- The first period of EXP: α^0 to α^25 with α = 3 (R124, R125). -/
def expPeriod : List Nat :=
  [1, 3, 9, 5, 15, 23, 13, 17, 20, 4, 12, 14, 11, 2, 6, 18, 7, 21, 16, 26, 22, 10, 8, 24, 25, 19]

/-- EXP[0..77], three periods (R125). -/
def expTable : List Nat := expPeriod ++ expPeriod ++ expPeriod

/-- LOG[1..26]: entry a − 1 is LOG[a] (R126). There is no entry for 0 (93_implementation_defined.md U2). -/
def logTable : List Nat :=
  [0, 13, 1, 9, 3, 14, 16, 22, 2, 21, 12, 10, 6, 11, 4, 18, 7, 15, 25, 8, 17, 20, 5, 23, 24, 19]

/-- INV[0..26]; INV[0] = 0 is the sentinel (R127). -/
def invTable : List Nat :=
  [0, 1, 2, 19, 21, 24, 11, 12, 15, 25, 23, 6, 7, 22, 18, 8, 20, 26, 14, 3, 16, 4, 13, 10, 5, 9, 17]

/-- Rows 0 to 8 of the table of R136. -/
def mulRowsA : List (List Nat) :=
  [ [0, 0, 0, 0, 0, 0, 0, 0, 0, 0, 0, 0, 0, 0, 0, 0, 0, 0, 0, 0, 0, 0, 0, 0, 0, 0, 0],
    [0, 1, 2, 3, 4, 5, 6, 7, 8, 9, 10, 11, 12, 13, 14, 15, 16, 17, 18, 19, 20, 21, 22, 23, 24, 25, 26],
    [0, 2, 1, 6, 8, 7, 3, 5, 4, 18, 20, 19, 24, 26, 25, 21, 23, 22, 9, 11, 10, 15, 17, 16, 12, 14, 13],
    [0, 3, 6, 9, 12, 15, 18, 21, 24, 5, 8, 2, 14, 17, 11, 23, 26, 20, 7, 1, 4, 16, 10, 13, 25, 19, 22],
    [0, 4, 8, 12, 16, 11, 24, 19, 23, 14, 15, 10, 26, 18, 22, 2, 3, 7, 25, 20, 21, 1, 5, 6, 13, 17, 9],
    [0, 5, 7, 15, 11, 13, 21, 26, 19, 23, 25, 18, 2, 4, 6, 17, 10, 12, 16, 9, 14, 22, 24, 20, 1, 3, 8],
    [0, 6, 3, 18, 24, 21, 9, 15, 12, 7, 4, 1, 25, 22, 19, 16, 13, 10, 5, 2, 8, 23, 20, 26, 14, 11, 17],
    [0, 7, 5, 21, 19, 26, 15, 13, 11, 16, 14, 9, 1, 8, 3, 22, 20, 24, 23, 18, 25, 17, 12, 10, 2, 6, 4],
    [0, 8, 4, 24, 23, 19, 12, 11, 16, 25, 21, 20, 13, 9, 17, 1, 6, 5, 14, 10, 15, 2, 7, 3, 26, 22, 18] ]

/-- Rows 9 to 17 of the table of R136. -/
def mulRowsB : List (List Nat) :=
  [ [0, 9, 18, 5, 14, 23, 7, 16, 25, 15, 24, 6, 11, 20, 2, 13, 22, 4, 21, 3, 12, 26, 8, 17, 19, 1, 10],
    [0, 10, 20, 8, 15, 25, 4, 14, 21, 24, 7, 17, 23, 3, 13, 19, 2, 9, 12, 22, 5, 11, 18, 1, 16, 26, 6],
    [0, 11, 19, 2, 10, 18, 1, 9, 20, 6, 17, 25, 8, 16, 24, 7, 15, 26, 3, 14, 22, 5, 13, 21, 4, 12, 23],
    [0, 12, 24, 14, 26, 2, 25, 1, 13, 11, 23, 8, 22, 7, 10, 6, 9, 21, 19, 4, 16, 3, 15, 18, 17, 20, 5],
    [0, 13, 26, 17, 18, 4, 22, 8, 9, 20, 3, 16, 7, 11, 21, 12, 25, 2, 10, 23, 6, 24, 1, 14, 5, 15, 19],
    [0, 14, 25, 11, 22, 6, 19, 3, 17, 2, 13, 24, 10, 21, 8, 18, 5, 16, 1, 12, 26, 9, 23, 7, 20, 4, 15],
    [0, 15, 21, 23, 2, 17, 16, 22, 1, 13, 19, 7, 6, 12, 18, 20, 8, 14, 26, 5, 11, 10, 25, 4, 3, 9, 24],
    [0, 16, 23, 26, 3, 10, 13, 20, 6, 22, 2, 15, 9, 25, 5, 8, 12, 19, 17, 21, 1, 4, 11, 24, 18, 7, 14],
    [0, 17, 22, 20, 7, 12, 10, 24, 5, 4, 9, 26, 21, 2, 16, 14, 19, 6, 8, 13, 18, 25, 3, 11, 15, 23, 1] ]

/-- Rows 18 to 26 of the table of R136. -/
def mulRowsC : List (List Nat) :=
  [ [0, 18, 9, 7, 25, 16, 5, 23, 14, 21, 12, 3, 19, 10, 1, 26, 17, 8, 15, 6, 24, 13, 4, 22, 11, 2, 20],
    [0, 19, 11, 1, 20, 9, 2, 18, 10, 3, 22, 14, 4, 23, 12, 5, 21, 13, 6, 25, 17, 7, 26, 15, 8, 24, 16],
    [0, 20, 10, 4, 21, 14, 8, 25, 15, 12, 5, 22, 16, 6, 26, 11, 1, 18, 24, 17, 7, 19, 9, 2, 23, 13, 3],
    [0, 21, 15, 16, 1, 22, 23, 17, 2, 26, 11, 5, 3, 24, 9, 10, 4, 25, 13, 7, 19, 20, 14, 8, 6, 18, 12],
    [0, 22, 17, 10, 5, 24, 20, 12, 7, 8, 18, 13, 15, 1, 23, 25, 11, 3, 4, 26, 9, 14, 6, 19, 21, 16, 2],
    [0, 23, 16, 13, 6, 20, 26, 10, 3, 17, 1, 21, 18, 14, 7, 4, 24, 11, 22, 15, 2, 8, 19, 12, 9, 5, 25],
    [0, 24, 12, 25, 13, 1, 14, 2, 26, 19, 16, 4, 17, 5, 20, 3, 18, 15, 11, 8, 23, 6, 21, 9, 22, 10, 7],
    [0, 25, 14, 19, 17, 3, 11, 6, 22, 1, 26, 12, 20, 15, 4, 9, 7, 23, 2, 24, 13, 18, 16, 5, 10, 8, 21],
    [0, 26, 13, 22, 9, 8, 17, 4, 18, 10, 6, 23, 5, 19, 15, 24, 14, 1, 20, 16, 3, 12, 2, 25, 7, 21, 11] ]

/-- MUL[0..26][0..26], row a, column b (R136). -/
def mulTable : List (List Nat) := mulRowsA ++ mulRowsB ++ mulRowsC

/-- a ⊗ b = MUL[a][b] (R127, R132). -/
def gfMul (a b : Sym) : Sym := toSym ((mulTable.getD a.val []).getD b.val 0)

/-- inv(a) = INV[a]; inv(0) = 0 is not an inverse (R128). -/
def gfInv (a : Sym) : Sym := toSym (invTable.getD a.val 0)

/-- α^e = EXP[e mod 26] (R128). -/
def alphaPow (e : Nat) : Sym := toSym (expTable.getD (e % 26) 0)

/-- LOG[a]; zero has no logarithm (R126). -/
def gfLog (a : Sym) : Option Nat := if a = 0 then none else logTable[a.val - 1]?

/-- vⁱ by repeated ⊗ (R11). -/
def gfPow (v : Sym) : Nat → Sym
  | 0 => 1
  | i + 1 => gfMul (gfPow v i) v

/-- Σ of `f 0` to `f (n − 1)` with ⊕ (R11). -/
def gfSum : Nat → (Nat → Sym) → Sym
  | 0, _ => 0
  | n + 1, f => gfAdd (gfSum n f) (f n)

/-- Coefficient i of a polynomial held low order first, zero past its last entry (R11). -/
def coeff {n : Nat} (v : Vector Sym n) (i : Nat) : Sym := if h : i < n then v[i] else 0

/-- eval(A, v) = Σ A[i] ⊗ vⁱ (R11). -/
def polyEval {n : Nat} (v : Vector Sym n) (x : Sym) : Sym := gfSum n fun i => gfMul (coeff v i) (gfPow x i)

end Sys2Proof.Machine
end

