-- ==== Sys2Proof/Config.lean ====
section
/-! DEFINITION. The implementation parameters of T3CORE (00_scope.md R6). The spec leaves none of them open, so
there is no opaque constant and no free value here (93_implementation_defined.md, U1 to U20). -/

namespace Sys2Proof.Config

/-- Code length n of RS(26, k) (R6, R150). -/
abbrev codeLength : Nat := 26

/-- Zero trits shifted in by CRC.FIN (R6, R222). -/
abbrev crcFlush : Nat := 12

/-- Most trits in one packed byte (R6, R104). -/
abbrev groupTrits : Nat := 5

/-- Largest quantized Y, smallest being 0 (R6, R200). -/
abbrev yMax : Int := 242

/-- Largest quantized Cb and Cr, the smallest being its negative (R6, R200). -/
abbrev cMax : Int := 40

/-- What is added to Cb and Cr before they are written in base 3 (R201, R202). -/
abbrev cOffset : Int := 40

end Sys2Proof.Config
end

