-- ==== Sys2Proof/Machine/State.lean ====
section
/-! DEFINITION. The state of one T3CORE instance (10_state.md R20 to R38), the port through which the host drives
it (00_scope.md R7, R8), and the reasons a step can stop. Plain data throughout. -/

namespace Sys2Proof.Machine

/-- One pixel register: a quantized pixel (R22). The ranges 0..242 and -40..40 are an invariant of the machine
(Safety.lean), not part of the type (log 8). -/
structure Pixel where
  y : Int
  cb : Int
  cr : Int
deriving DecidableEq, Repr

/-- The response codes of R76 that are ever produced; codes 6..15 are not. ST.LASTERR holds one of them (R34). -/
inductive ResultCode where
  /-- 0, success; as the value of ST.LASTERR: no non-OK response since reset or the last STAT.CLR. -/
  | ok
  /-- 1, a fault: no row of R78 is selected. -/
  | illegalCommand
  /-- 2, a fault: an operand field holds a value the command refuses. -/
  | badOperand
  /-- 3, a fault: no such buffer or index. -/
  | outOfRange
  /-- 4, a fault: no such profile. -/
  | invalidProfile
  /-- 5, a result status: the stage ran and the word is uncorrectable. -/
  | rsUncorrectable
deriving DecidableEq, Repr

/-- The RS parameter set ST.PSEL selects (R30, R150): 0..3 are P1..P4. -/
inductive Profile where
  | p1
  | p2
  | p3
  | p4
deriving DecidableEq, Repr

/-- The status register ST (R29). Bits 27..18 of its read-out have no storage. -/
structure Status where
  /-- PSEL, 2 bits (R30). -/
  psel : Profile
  /-- SZ, the last RS.SYN found every syndrome zero (R31). -/
  sz : Bool
  /-- UNC, uncorrectable (R32). -/
  unc : Bool
  /-- INV0, sticky: GF.INV met operand 0 (R33). -/
  inv0 : Bool
  /-- LASTERR, 4 bits (R34). -/
  lasterr : ResultCode
  /-- LEN, 4 bits: the register length of the last RS.BM, 0..8 (R35). -/
  len : Nat
  /-- NROOT, 5 bits: the roots the last RS.CHIEN found, 0..26 (R35). -/
  nroot : Nat
deriving DecidableEq, Repr

/-- The six buffers of the buffer space (20_memory.md R51), ids 0 to 5 in this order. -/
inductive BufId where
  | cw
  | syn
  | sig
  | omg
  | w
  | loc
deriving DecidableEq, Repr

/-- What the host can do between two commands (00_scope.md R8): present a command word, or assert hardware reset
(70_reset_and_hazards.md R290). -/
inductive HostEvent where
  | command (w : Word)
  | hardwareReset
deriving DecidableEq, Repr

/-- The whole state (R20) and the command port. -/
structure State where
  /-- PX[0] and PX[1] (R22). -/
  px : Vector Pixel 2
  /-- CW, the codeword buffer: index = degree = position (R23). -/
  cw : Vector Sym 26
  /-- SYN, the syndromes (R24). -/
  syn : Vector Sym 8
  /-- SIG, the error locator, low order first (R25). -/
  sig : Vector Sym 9
  /-- OMG, the error evaluator, low order first (R26). -/
  omg : Vector Sym 8
  /-- W, one Word27 (R27). -/
  w : Vector Sym 9
  /-- LOC, the error-location map: `true` is 1, `false` is 0 (R28). -/
  loc : Vector Bool 26
  /-- ST (R29). -/
  st : Status
  /-- CRC, the ternary CRC-12 register (R36). -/
  crc : Vector Trit 12
  /-- The model's own: the host's events not yet taken, oldest first (R7, R8; log 1). -/
  pending : List HostEvent
  /-- The model's own: the responses returned so far, oldest first (R7, R59, R75; log 2). -/
  responses : List Word
deriving DecidableEq, Repr

/-- Reasons the machine would stop with a fault. T3CORE has none: "T3CORE has no panic, halt or lock-up state"
(60_exceptions.md R264). The spec's own faults (R262) are responses, after which the machine goes on, and so are
NEXT states here. -/
inductive Fault where
  /-- The stop the source calls a panic (R264, U9). Raised by NOBODY: no definition of the model answers it.
  Safe: a stop that never happens rules out no behaviour of the hardware (log 9). -/
  | panic
deriving DecidableEq, Repr

/-- Reasons an instruction has no meaning. -/
inductive Refusal where
  /-- Raised by an arm of `exec` whose instruction is not modelled yet: at present by none. Safe: the model stops
  where the hardware would go on. -/
  | notModelled (mnemonic : String)
deriving DecidableEq, Repr

/-- How a step, and the meaning of an instruction, ends. -/
abbrev Result := Host.Outcome State Fault Refusal

/-- ST after reset: every field 0 (R29, R38). -/
def Status.reset : Status :=
  { psel := .p1, sz := false, unc := false, inv0 := false, lasterr := .ok, len := 0, nroot := 0 }

/-- The machine right after reset (R38, R291): every item zero, profile P1. Nothing is pending and no response
has been given (log 1, log 2). -/
def State.reset : State :=
  { px := Vector.replicate 2 ⟨0, 0, 0⟩
    cw := Vector.replicate 26 0
    syn := Vector.replicate 8 0
    sig := Vector.replicate 9 0
    omg := Vector.replicate 8 0
    w := Vector.replicate 9 0
    loc := Vector.replicate 26 false
    st := Status.reset
    crc := Vector.replicate 12 0
    pending := []
    responses := [] }

end Sys2Proof.Machine
end

