-- ==== Sys2Proof/Machine/Ops.lean ====
section
/-! DEFINITION. The named operations every meaning is written over: responding and raising a fault (30_encoding.md
R75, R76; 60_exceptions.md R262), access to the buffer space (20_memory.md R51) and to the pixel registers
(10_state.md R22), and reset (70_reset_and_hazards.md R290, R291). -/

namespace Sys2Proof.Machine

/-- The 4-bit code of a response (R76). -/
def ResultCode.code : ResultCode → BitVec 4
  | .ok => 0
  | .illegalCommand => 1
  | .badOperand => 2
  | .outOfRange => 3
  | .invalidProfile => 4
  | .rsUncorrectable => 5

/-- The response word: code in bits 31..28, data in bits 27..0 (R75). -/
def responseWord (c : ResultCode) (d : Data) : Word := c.code ++ d

/-- What a response leaves in ST.LASTERR: a non-OK code replaces it, OK keeps it (R34). -/
def lasterrAfter (c : ResultCode) (old : ResultCode) : ResultCode := if c = .ok then old else c

/-- `respond(c, d)`: the command ends with this response (R12, R75); every non-OK response sets ST.LASTERR
(R29, R34). Responses come back in command order (R59). -/
def State.respond (s : State) (c : ResultCode) (d : Data) : State :=
  { s with
    st := { s.st with lasterr := lasterrAfter c s.st.lasterr }
    responses := s.responses ++ [responseWord c d] }

/-- `raise F`, which is all that taking an exception is in T3CORE: no state changes but ST.LASTERR, and the
response is the code with zero data (R12, R262, R267). Nothing is saved, no mode changes and there is nothing to
return from: the next command runs normally (R268). -/
def State.raise (s : State) (f : ResultCode) : State := s.respond f 0

/-- What stands in the place of a return from an exception: the acknowledge of STAT.CLR, which clears ST.LASTERR
and ST.INV0 and is optional (R242, R268). -/
def State.acknowledge (s : State) : State := { s with st := { s.st with lasterr := .ok, inv0 := false } }

/-- Every item of R38 takes its reset value (R243, R290, R291). The command port is the host's and is kept
(log 4). -/
def State.toReset (s : State) : State :=
  { State.reset with pending := s.pending, responses := s.responses }

/-- The number of elements of a buffer (R51). -/
def BufId.length : BufId → Nat
  | .cw => 26
  | .syn => 8
  | .sig => 9
  | .omg => 8
  | .w => 9
  | .loc => 26

/-- An entry of LOC as the integer 0 or 1 (R28, R51); past the end it is not used. -/
def locEntry (v : Vector Bool 26) (i : Nat) : Bool := if h : i < 26 then v[i] else false

/-- `MemRead(buf, idx)` for an index within the buffer (R51). -/
def State.memRead (s : State) : BufId → Nat → Sym
  | .cw, i => coeff s.cw i
  | .syn, i => coeff s.syn i
  | .sig, i => coeff s.sig i
  | .omg, i => coeff s.omg i
  | .w, i => coeff s.w i
  | .loc, i => bif locEntry s.loc i then 1 else 0

/-- `MemWrite(buf, idx, v)` for an index within the buffer and a value it can hold (R51): exactly one element. -/
def State.memWrite (s : State) : BufId → Nat → Sym → State
  | .cw, i, v => { s with cw := s.cw.setIfInBounds i v }
  | .syn, i, v => { s with syn := s.syn.setIfInBounds i v }
  | .sig, i, v => { s with sig := s.sig.setIfInBounds i v }
  | .omg, i, v => { s with omg := s.omg.setIfInBounds i v }
  | .w, i, v => { s with w := s.w.setIfInBounds i v }
  | .loc, i, v => { s with loc := s.loc.setIfInBounds i (v != 0) }

/-- `x[n]`: read pixel register n (R12, R22). -/
def State.readPx (s : State) (n : Fin 2) : Pixel := s.px[n]

/-- `x[n] <- p`: write pixel register n (R12, R22). -/
def State.writePx (s : State) (n : Fin 2) (p : Pixel) : State := { s with px := s.px.set n p }

end Sys2Proof.Machine
end

