-- ==== Sys2Proof/Machine/Operands.lean ====
section
/-! DEFINITION. Every operand form: what a command reads from its fields and which field values it refuses
(30_encoding.md R72, R73, R74; 60_exceptions.md R261), the trit maps and their clamps (40_trit_pack.md R100, R101,
R104), the pixel clamps (44_pixel_word.md R200) and the layouts of response data (30_encoding.md R77). -/

namespace Sys2Proof.Machine

/-- A symbol field: 27..31 are refused (R73). -/
def symOperand (f : BitVec 5) : Option Sym := if h : f.toNat < 27 then some ⟨f.toNat, h⟩ else none

/-- An unbalanced trit field: 3 is refused (R72). -/
def tritOperand (f : BitVec 2) : Option Trit := if h : f.toNat < 3 then some ⟨f.toNat, h⟩ else none

/-- The trit count of PACK243 and UNPK243: 1..5 (R105, R106). -/
def countOperand (k : BitVec 3) : Option Nat :=
  if k.toNat < 1 ∨ Config.groupTrits < k.toNat then none else some k.toNat

/-- The buffer a 3-bit id names: 6 and 7 name none (R51). -/
def bufOperand (buf : BitVec 3) : Option BufId :=
  [some .cw, some .syn, some .sig, some .omg, some .w, some .loc, none, none].getD buf.toNat none

/-- An address of the buffer space, the id checked before the index (R244, R245). -/
def addressOperand (buf : BitVec 3) (idx : BitVec 5) : Option (BufId × Nat) :=
  match bufOperand buf with
  | none => none
  | some b => if b.length ≤ idx.toNat then none else some (b, idx.toNat)

/-- A value the buffer can hold: a symbol, and for LOC 0 or 1 (R51, R244). -/
def elementOperand (b : BufId) (f : BitVec 5) : Option Sym :=
  match symOperand f with
  | none => none
  | some v => if b = .loc ∧ 1 < v.val then none else some v

/-- The profile an 8-bit index names: 4..255 name none (R154). -/
def profileOperand (p : BitVec 8) : Option Profile :=
  if p.toNat = 0 then some .p1
  else if p.toNat = 1 then some .p2
  else if p.toNat = 2 then some .p3
  else if p.toNat = 3 then some .p4
  else none

/-- The pixel register a 1-bit field names (R74). -/
def pxOperand (n : BitVec 1) : Fin 2 := n.toFin

/-- k of the selected profile (R30, R150). -/
def Profile.k : Profile → Nat
  | .p1 => 24
  | .p2 => 22
  | .p3 => 20
  | .p4 => 18

/-- r = n − k, the number of parity symbols and of syndromes (R150). -/
def Profile.r (p : Profile) : Nat := Config.codeLength - p.k

/-- t = ⌊r / 2⌋, the number of correctable errors (R150). -/
def Profile.t (p : Profile) : Nat := p.r / 2

/-- PSEL as two bits (R29, R30). -/
def Profile.code : Profile → BitVec 2
  | .p1 => 0
  | .p2 => 1
  | .p3 => 2
  | .p4 => 3

/-- `clampB(b) = max(−1, min(+1, b))` (R101). -/
def clampB (b : Int) : Int := max (-1) (min 1 b)

/-- `clampU(u) = max(0, min(2, u))` (R101). -/
def clampU (u : Int) : Int := max 0 (min 2 u)

/-- `bal→unb(b) = clampB(b) + 1` (R100, R101). -/
def balToUnb (b : Int) : Int := clampB b + 1

/-- `unb→bal(u) = clampU(u) − 1` (R100, R101). -/
def unbToBal (u : Int) : Int := clampU u - 1

/-- `satY(v) = max(0, min(242, v))` (R200). -/
def satY (v : Int) : Int := max 0 (min Config.yMax v)

/-- `satC(v) = max(−40, min(40, v))` (R200). -/
def satC (v : Int) : Int := max (-Config.cMax) (min Config.cMax v)

/-- The trit that is `n` mod 3. -/
def tritOf (n : Nat) : Trit := ⟨n % 3, Nat.mod_lt n (by decide)⟩

/-- `digits(v, n)`: n unbalanced trits of v, the weight-1 trit first (R104, R201). -/
def digits (v n : Nat) : List Trit := (List.range n).map fun i => tritOf (v / 3 ^ i)

/-- Σ tᵢ·3ⁱ, the first trit having weight 1 (R104). -/
def tritsValue : List Trit → Nat
  | [] => 0
  | t :: ts => t.val + 3 * tritsValue ts

/-- The trits of a PACK243 group: lanes below n are trits and the other lanes are zero, or it is refused (R105). -/
def groupOperand (n : Nat) (t : Vector (BitVec 2) 5) : Option (List Trit) :=
  if (t.toList.take n).any (fun f => f.toNat == 3) then none
  else if (t.toList.drop n).any (fun f => f.toNat != 0) then none
  else some ((t.toList.take n).map fun f => tritOf f.toNat)

/-- 2-bit lanes as response data, lane i at bits 2i+1..2i and the other bits zero (R77). -/
def lanesData : List (BitVec 2) → Data
  | [] => 0
  | l :: ls => (lanesData ls <<< 2) ||| l.setWidth 28

/-- Unbalanced trits as response data (R72, R77). -/
def tritsData (ts : List Trit) : Data := lanesData (ts.map fun t => BitVec.ofNat 2 t.val)

/-- A symbol as response data, bits 4..0 (R77). -/
def symData (a : Sym) : Data := BitVec.ofNat 28 a.val

/-- A pixel as response data: Y at 24..16, Cb at 15..8 and Cr at 7..0 in two's complement (R77, R205). -/
def pixelData (p : Pixel) : Data :=
  0#3 ++ BitVec.ofInt 9 p.y ++ BitVec.ofInt 8 p.cb ++ BitVec.ofInt 8 p.cr

end Sys2Proof.Machine
end

