-- ==== Sys2Proof/Machine/Flags.lean ====
section
/-! DEFINITION. Every computation and update of a status field (10_state.md R29 to R35) but ST.LASTERR, which the
response itself sets (Ops.lean). -/

namespace Sys2Proof.Machine

/-- ST as STAT.RD returns it: PSEL 1..0, SZ 2, UNC 3, INV0 4, LASTERR 8..5, LEN 12..9, NROOT 17..13, zero above
(R29). -/
def Status.data (st : Status) : Data :=
  0#10 ++ BitVec.ofNat 5 st.nroot ++ BitVec.ofNat 4 st.len ++ st.lasterr.code ++ BitVec.ofBool st.inv0
    ++ BitVec.ofBool st.unc ++ BitVec.ofBool st.sz ++ st.psel.code

/-- Every syndrome below r is zero (R31, R172). -/
def syndromesZero (r : Nat) (syn : Vector Sym 8) : Bool := (List.range r).all fun j => coeff syn j == 0

/-- The number of positions with LOC[pos] = 1 (R35, R176). -/
def rootCount (loc : Vector Bool 26) : Nat := loc.toList.countP id

/-- RS.SYN sets ST.SZ and clears ST.UNC (R31, R32, R172). -/
def Status.afterSyndromes (st : Status) (zero : Bool) : Status := { st with sz := zero, unc := false }

/-- ST.UNC ← 1 when the stage ends uncorrectable, else kept (R32). -/
def Status.withOutcome (st : Status) (uncorrectable : Bool) : Status := { st with unc := uncorrectable || st.unc }

/-- ST.INV0 ← 1 when GF.INV met operand 0, else kept: it is sticky (R33, R133). -/
def Status.withInverted (st : Status) (a : Sym) : Status := { st with inv0 := a == 0 || st.inv0 }

/-- The code of a stage's response: `RsUncorrectable` or OK (R263). -/
def outcomeCode (uncorrectable : Bool) : ResultCode := if uncorrectable then .rsUncorrectable else .ok

end Sys2Proof.Machine
end

