-- ==== Sys2Proof/Machine/Buffer.lean ====
section
/-! DEFINITION. Buffer access: BUF.WR and BUF.RD (46_system_buffer.md R244, R245, R246). -/

namespace Sys2Proof.Machine

/-- BUF.WR: write one element. The id and the index are checked before the value, and no status field changes
(R244, R246). -/
def execBufWr (buf : BitVec 3) (idx : BitVec 5) (sym : BitVec 5) (s : State) : Result :=
  match addressOperand buf idx with
  | none => .next (s.raise .outOfRange)
  | some (b, i) =>
    match elementOperand b sym with
    | none => .next (s.raise .badOperand)
    | some v => .next ((s.memWrite b i v).respond .ok 0)

/-- BUF.RD: read one element, with no side effect (R245). -/
def execBufRd (buf : BitVec 3) (idx : BitVec 5) (s : State) : Result :=
  match addressOperand buf idx with
  | none => .next (s.raise .outOfRange)
  | some (b, i) => .next (s.respond .ok (symData (s.memRead b i)))

end Sys2Proof.Machine
end

