-- ==== Sys2Proof/Machine/Crc.lean ====
section
/-! DEFINITION. The ternary CRC-12 LFSR: CRC.INIT, CRC.TRIT, CRC.SYM, CRC.FIN, CRC.RD (45_crc12.md R220 to R227).
The tap pattern is normative, no polynomial is (R229). -/

namespace Sys2Proof.Machine

/-- fb = (in + reg[11]) mod 3 (R221). -/
def crcFeedback (reg : Vector Trit 12) (t : Trit) : Trit := t + reg[11]

/-- `crc_step(reg, in)`: positions 0, 3, 4, 7 add the feedback, the others take the previous neighbour, and
position 0 has none (R221). -/
def crcStep (reg : Vector Trit 12) (t : Trit) : Vector Trit 12 :=
  let fb := crcFeedback reg t
  #v[fb, reg[0], reg[1], reg[2] + fb, reg[3] + fb, reg[4], reg[5], reg[6] + fb, reg[7], reg[8], reg[9], reg[10]]

/-- `crc_step` over the trits of a message, the first trit first (R222). -/
def crcFeed (reg : Vector Trit 12) (ts : List Trit) : Vector Trit 12 := ts.foldl crcStep reg

/-- CRC.INIT: clear the register (R223). -/
def execCrcInit (s : State) : Result := .next (State.respond { s with crc := Vector.replicate 12 0 } .ok 0)

/-- CRC.TRIT: feed one trit; 3 is refused (R224). -/
def execCrcTrit (t : BitVec 2) (s : State) : Result :=
  match tritOperand t with
  | none => .next (s.raise .badOperand)
  | some d => .next (State.respond { s with crc := crcFeed s.crc [d] } .ok 0)

/-- CRC.SYM: feed a symbol's three trits, digit 0 first (R225). -/
def execCrcSym (a : BitVec 5) (s : State) : Result :=
  match symOperand a with
  | none => .next (s.raise .badOperand)
  | some x => .next (State.respond { s with crc := crcFeed s.crc [dig x 0, dig x 1, dig x 2] } .ok 0)

/-- CRC.FIN: shift in twelve zero trits (R222, R226). -/
def execCrcFin (s : State) : Result :=
  .next (State.respond { s with crc := crcFeed s.crc (List.replicate Config.crcFlush 0) } .ok 0)

/-- CRC.RD: the register in the data, CRC[i] at bits 2i+1..2i; reading clears nothing (R227). -/
def execCrcRd (s : State) : Result := .next (s.respond .ok (tritsData s.crc.toList))

end Sys2Proof.Machine
end

