-- ==== Sys2Proof/Machine/Gf.lean ====
section
/-! DEFINITION. The field commands: GF.ADD, GF.SUB, GF.MUL, GF.INV, GF.POWA (41_gf27.md R130 to R134). -/

namespace Sys2Proof.Machine

/-- The shape of the G2 commands: both symbol fields are checked together (R265), then the operation answers. -/
def fieldOp (op : Sym → Sym → Sym) (a b : BitVec 5) (s : State) : Result :=
  match symOperand a, symOperand b with
  | some x, some y => .next (s.respond .ok (symData (op x y)))
  | _, _ => .next (s.raise .badOperand)

/-- GF.ADD: a ⊕ b (R130). -/
def execGfAdd (a b : BitVec 5) (s : State) : Result := fieldOp gfAdd a b s

/-- GF.SUB: a ⊖ b (R131). -/
def execGfSub (a b : BitVec 5) (s : State) : Result := fieldOp gfSub a b s

/-- GF.MUL: MUL[a][b] (R132). -/
def execGfMul (a b : BitVec 5) (s : State) : Result := fieldOp gfMul a b s

/-- GF.INV: INV[a], with INV[0] = 0; operand 0 sets ST.INV0 and is no fault (R133). -/
def execGfInv (a : BitVec 5) (s : State) : Result :=
  match symOperand a with
  | none => .next (s.raise .badOperand)
  | some x => .next (State.respond { s with st := s.st.withInverted x } .ok (symData (gfInv x)))

/-- GF.POWA: EXP[e mod 26] (R134). -/
def execGfPowa (e : BitVec 16) (s : State) : Result := .next (s.respond .ok (symData (alphaPow e.toNat)))

end Sys2Proof.Machine
end

