-- ==== Sys2Proof/Machine/Pix.lean ====
section
/-! DEFINITION. The pixel ↔ Word27 packer: PIX.LD, PIX.RD, PIX.PACK2, PIX.PACK1, PIX.UNPK2, PIX.UNPK1
(44_pixel_word.md R200 to R209). -/

namespace Sys2Proof.Machine

/-- A pixel moved into range (R200). -/
def Pixel.saturate (p : Pixel) : Pixel := ⟨satY p.y, satC p.cb, satC p.cr⟩

/-- The three signed fields of format PX (R74, R204). -/
def pixelOperand (y : BitVec 9) (cb cr : BitVec 8) : Pixel := ⟨y.toInt, cb.toInt, cr.toInt⟩

/-- A chroma component with its offset, as the non-negative integer that is written in base 3 (R201, R202). -/
def chroma (c : Int) : Nat := (c + Config.cOffset).toNat

/-- The 13 trits of one pixel in pair packing (R201). -/
def pixelTrits (p : Pixel) : List Trit :=
  digits p.y.toNat 5 ++ digits (chroma p.cb) 4 ++ digits (chroma p.cr) 4

/-- T[0..26] of pair packing: the two pixels and a zero trit (R201). -/
def pairTrits (p0 p1 : Pixel) : List Trit := pixelTrits p0 ++ pixelTrits p1 ++ [0]

/-- N = Y + 243·(Cb + 40) + 19683·(Cr + 40) (R202). -/
def singletonValue (p : Pixel) : Nat := p.y.toNat + 243 * chroma p.cb + 19683 * chroma p.cr

/-- T[0..26] of singleton packing: 13 trits of N and fourteen zeros (R202). -/
def singletonTrits (p : Pixel) : List Trit := digits (singletonValue p) 13 ++ List.replicate 14 0

/-- W[s] = T[3s] + 3·T[3s+1] + 9·T[3s+2] (R201, R202). -/
def wordOfTrits (t : List Trit) : Vector Sym 9 :=
  Vector.ofFn fun s => symOf (t.getD (3 * s.val) 0) (t.getD (3 * s.val + 1) 0) (t.getD (3 * s.val + 2) 0)

/-- T[3s+i] = dig(W[s], i) (R10, R208). -/
def wordTrit (w : Vector Sym 9) (i : Nat) : Trit := dig (coeff w (i / 3)) (i % 3)

/-- `val(off, n) = Σ_{i<n} T[off+i]·3ⁱ` (R208). -/
def wordValue (w : Vector Sym 9) (off n : Nat) : Int :=
  tritsValue ((List.range n).map fun i => wordTrit w (off + i))

/-- The pixel whose 13 trits start at trit `off` of the word (R208, R209). -/
def pixelAt (w : Vector Sym 9) (off : Nat) : Pixel :=
  ⟨wordValue w off 5, wordValue w (off + 5) 4 - Config.cOffset, wordValue w (off + 9) 4 - Config.cOffset⟩

/-- PIX.LD: load one pixel register, clamping; data bit 0 says whether a component was clamped (R204). -/
def execPixLd (n : BitVec 1) (y : BitVec 9) (cb cr : BitVec 8) (s : State) : Result :=
  let p := pixelOperand y cb cr
  .next ((s.writePx (pxOperand n) p.saturate).respond .ok (if p.saturate = p then 0 else 1))

/-- PIX.RD: read one pixel register (R205). -/
def execPixRd (n : BitVec 1) (s : State) : Result := .next (s.respond .ok (pixelData (s.readPx (pxOperand n))))

/-- PIX.PACK2: pair-pack PX[0] and PX[1] into W (R206). -/
def execPixPack2 (s : State) : Result :=
  .next (State.respond { s with w := wordOfTrits (pairTrits (s.readPx 0) (s.readPx 1)) } .ok 0)

/-- PIX.PACK1: singleton-pack PX[0] into W (R207). -/
def execPixPack1 (s : State) : Result :=
  .next (State.respond { s with w := wordOfTrits (singletonTrits (s.readPx 0)) } .ok 0)

/-- PIX.UNPK2: unpack W as a pair; T[26] is ignored (R208). -/
def execPixUnpk2 (s : State) : Result :=
  .next (((s.writePx 0 (pixelAt s.w 0)).writePx 1 (pixelAt s.w 13)).respond .ok 0)

/-- PIX.UNPK1: unpack W as a singleton into PX[0]; T[13..26] are ignored (R209). -/
def execPixUnpk1 (s : State) : Result := .next ((s.writePx 0 (pixelAt s.w 0)).respond .ok 0)

end Sys2Proof.Machine
end

