-- ==== Sys2Proof/Machine/RsDecode.lean ====
section
/-! DEFINITION. The RS(26,k) decoder stages: RS.SYN, RS.BM, RS.CHIEN, RS.FORNEY, RS.DEC (43_rs_decode.md R170 to
R184). Each stage is a total function of the buffers it reads (R170). -/

namespace Sys2Proof.Machine

/-! ### Syndromes -/

/-- Sⱼ = Σᵢ CW[i] ⊗ α^((j+1)·i) (R171). -/
def syndrome (cw : Vector Sym 26) (j : Nat) : Sym :=
  gfSum Config.codeLength fun i => gfMul (coeff cw i) (alphaPow ((j + 1) * i))

/-- SYN[0..7]: the r syndromes, zero beyond (R172). -/
def syndromes (r : Nat) (cw : Vector Sym 26) : Vector Sym 8 :=
  Vector.ofFn fun j => if j.val < r then syndrome cw j.val else 0

/-- The stage (a): SYN, ST.SZ and ST.UNC (R172). -/
def synStage (s : State) : State :=
  let syn := syndromes s.st.psel.r s.cw
  { s with syn := syn, st := s.st.afterSyndromes (syndromesZero s.st.psel.r syn) }

/-! ### Berlekamp–Massey -/

/-- The variables of R173: C, B, L, m and b. -/
structure BmState where
  c : Vector Sym 9
  b : Vector Sym 9
  len : Nat
  m : Nat
  disc : Sym
deriving DecidableEq, Repr

/-- The start of R173: C = B = 1, L = 0, m = 1, b = 1. -/
def bmInit : BmState :=
  { c := #v[1, 0, 0, 0, 0, 0, 0, 0, 0], b := #v[1, 0, 0, 0, 0, 0, 0, 0, 0], len := 0, m := 1, disc := 1 }

/-- d = SYN[n] ⊕ Σ_{i=1..L} C[i] ⊗ SYN[n−i] (R173). -/
def bmDiscrepancy (syn : Vector Sym 8) (st : BmState) (n : Nat) : Sym :=
  gfAdd (coeff syn n) (gfSum st.len fun i => gfMul (coeff st.c (i + 1)) (coeff syn (n - (i + 1))))

/-- C[i+m] ← C[i+m] ⊖ coef ⊗ B[i], terms with i + m > 8 dropped (R173). -/
def bmUpdate (cur old : Vector Sym 9) (coef : Sym) (m : Nat) : Vector Sym 9 :=
  Vector.ofFn fun i => if m ≤ i.val then gfSub cur[i] (gfMul coef (coeff old (i.val - m))) else cur[i]

/-- One round of R173. -/
def bmStep (syn : Vector Sym 8) (st : BmState) (n : Nat) : BmState :=
  let d := bmDiscrepancy syn st n
  if d = 0 then { st with m := st.m + 1 }
  else
    let c := bmUpdate st.c st.b (gfMul d (gfInv st.disc)) st.m
    if 2 * st.len ≤ n then { c := c, b := st.c, len := n + 1 - st.len, m := 1, disc := d }
    else { st with c := c, m := st.m + 1 }

/-- Massey's synthesis on SYN[0..r−1] (R173): σ is `c` and L is `len`. -/
def berlekampMassey (r : Nat) (syn : Vector Sym 8) : BmState :=
  (List.range r).foldl (bmStep syn) bmInit

/-- How a stage ends: its state before the response, whether it is uncorrectable, and its data. -/
structure StageEnd where
  state : State
  uncorrectable : Bool
  data : Data
deriving DecidableEq, Repr

/-- The stage (b): SIG, ST.LEN, and ST.UNC when L > t (R174). -/
def bmStage (s : State) : StageEnd :=
  let res := berlekampMassey s.st.psel.r s.syn
  let unc := decide (s.st.psel.t < res.len)
  { state := { s with sig := res.c, st := Status.withOutcome { s.st with len := res.len } unc }
    uncorrectable := unc
    data := BitVec.ofNat 28 res.len }

/-! ### Chien search -/

/-- σ(α^−pos), all nine coefficients entering (R175, R176). -/
def locatorAt (sig : Vector Sym 9) (pos : Nat) : Sym :=
  gfSum 9 fun i => gfMul (coeff sig i) (alphaPow (i * (26 - pos)))

/-- LOC: 1 exactly at the positions with σ(α^−pos) = 0 (R176). -/
def chienSearch (sig : Vector Sym 9) : Vector Bool 26 := Vector.ofFn fun pos => locatorAt sig pos.val == 0

/-- The stage (c): LOC, ST.NROOT, and ST.UNC when the root count is not ST.LEN (R176). -/
def chienStage (s : State) : StageEnd :=
  let loc := chienSearch s.sig
  let cnt := rootCount loc
  let unc := cnt != s.st.len
  { state := { s with loc := loc, st := Status.withOutcome { s.st with nroot := cnt } unc }
    uncorrectable := unc
    data := BitVec.ofNat 28 cnt }

/-! ### Forney -/

/-- Ω[i] = Σ_{j=0..i} SIG[j] ⊗ SYN[i−j] below r, zero from r on (R177). -/
def evaluator (r : Nat) (sig : Vector Sym 9) (syn : Vector Sym 8) : Vector Sym 8 :=
  Vector.ofFn fun i =>
    if i.val < r then gfSum (i.val + 1) fun j => gfMul (coeff sig j) (coeff syn (i.val - j)) else 0

/-- σ′ in characteristic 3: D[i−1] is 0, SIG[i] or SIG[i] ⊕ SIG[i] as i mod 3 is 0, 1 or 2 (R178). -/
def derivative (sig : Vector Sym 9) : Vector Sym 8 :=
  Vector.ofFn fun i =>
    let a := coeff sig (i.val + 1)
    if (i.val + 1) % 3 = 0 then 0 else if (i.val + 1) % 3 = 1 then a else gfAdd a a

/-- X⁻¹ = α^((26 − pos) mod 26) (R179). -/
def locatorInverse (pos : Nat) : Sym := alphaPow (26 - pos)

/-- den = eval(σ′, X⁻¹) (R179). -/
def forneyDenominator (sig : Vector Sym 9) (pos : Nat) : Sym :=
  polyEval (derivative sig) (locatorInverse pos)

/-- mag = neg(eval(Ω, X⁻¹) ⊗ inv(den)) (R179). -/
def forneyMagnitude (omg : Vector Sym 8) (sig : Vector Sym 9) (pos : Nat) : Sym :=
  gfNeg (gfMul (polyEval omg (locatorInverse pos)) (gfInv (forneyDenominator sig pos)))

/-- Some position with LOC[pos] = 1 has a zero denominator (R180). -/
def forneyFails (sig : Vector Sym 9) (loc : Vector Bool 26) : Bool :=
  (List.range 26).any fun pos => locEntry loc pos && forneyDenominator sig pos == 0

/-- CW[pos] ⊖ mag at every position with LOC[pos] = 1: the correction subtracts (R179, R180, conflict C1). -/
def corrected (cw : Vector Sym 26) (omg : Vector Sym 8) (sig : Vector Sym 9) (loc : Vector Bool 26) :
    Vector Sym 26 :=
  Vector.ofFn fun pos => if loc[pos] then gfSub cw[pos] (forneyMagnitude omg sig pos.val) else cw[pos]

/-- The stages (d), (e), (f): OMG always, CW only when no denominator is zero (R180). -/
def forneyStage (s : State) : StageEnd :=
  let omg := evaluator s.st.psel.r s.sig s.syn
  let fail := forneyFails s.sig s.loc
  { state := { s with
      omg := omg
      cw := if fail then s.cw else corrected s.cw omg s.sig s.loc
      st := s.st.withOutcome fail }
    uncorrectable := fail
    data := if fail then 0 else BitVec.ofNat 28 (rootCount s.loc) }

/-! ### The commands -/

/-- A stage ends with its response: `RsUncorrectable` also sets ST.LASTERR (R263). -/
def StageEnd.finish (e : StageEnd) : State := e.state.respond (outcomeCode e.uncorrectable) e.data

/-- The four stages in order, ending at zero syndromes or at the first uncorrectable stage (R181, R269). -/
def decodeWord (s : State) : State :=
  let s1 := synStage s
  if s1.st.sz then s1.respond .ok 0
  else
    let e2 := bmStage s1
    if e2.uncorrectable then e2.finish
    else
      let e3 := chienStage e2.state
      if e3.uncorrectable then e3.finish else (forneyStage e3.state).finish

/-- RS.SYN: data bit 0 is ST.SZ after the command (R172). -/
def execRsSyn (s : State) : Result :=
  .next ((synStage s).respond .ok ((BitVec.ofBool (synStage s).st.sz).setWidth 28))

/-- RS.BM (R174). -/
def execRsBm (s : State) : Result := .next (bmStage s).finish

/-- RS.CHIEN (R176). -/
def execRsChien (s : State) : Result := .next (chienStage s).finish

/-- RS.FORNEY (R180). -/
def execRsForney (s : State) : Result := .next (forneyStage s).finish

/-- RS.DEC (R181). -/
def execRsDec (s : State) : Result := .next (decodeWord s)

end Sys2Proof.Machine
end

