-- ==== Sys2Proof/Machine/RsEncode.lean ====
section
/-! DEFINITION. RS profile selection and the systematic encoder: RS.CFG, RS.ENC (42_rs_encode.md R150 to R155). -/

namespace Sys2Proof.Machine

/-- g[0..r], low order first (R152). -/
def generator : Profile → List Sym
  | .p1 => [5, 24, 1]
  | .p2 => [12, 24, 15, 16, 1]
  | .p3 => [10, 4, 19, 13, 16, 10, 1]
  | .p4 => [12, 14, 24, 23, 1, 8, 23, 12, 1]

/-- One step of the division by g: with f = c ⊕ rem[r−1], rem[i] ← rem[i−1] ⊖ f ⊗ g[i], where rem[−1] is 0
(R155). -/
def encodeStep (g rem : List Sym) (c : Sym) : List Sym :=
  let f := gfAdd c (rem.getLastD 0)
  List.zipWith (fun prev gi => gfSub prev (gfMul f gi)) (0 :: rem.dropLast) g

/-- ρ(x) = (m(x)·x^r) mod g(x), low order first, for the message m given low order first; the highest degree is
divided first (R153, R155). -/
def remainder (p : Profile) (msg : List Sym) : List Sym :=
  msg.reverse.foldl (encodeStep (generator p)) (List.replicate p.r 0)

/-- The codeword of R153: message at degrees r..25, parity the negated remainder. -/
def encodeWord (p : Profile) (cw : Vector Sym 26) : Vector Sym 26 :=
  let rem := remainder p (cw.toList.drop p.r)
  Vector.ofFn fun i => if i.val < p.r then gfNeg (rem.getD i.val 0) else cw[i]

/-- RS.CFG: select the profile; no buffer and no other status field changes (R154). -/
def execRsCfg (p : BitVec 8) (s : State) : Result :=
  match profileOperand p with
  | none => .next (s.raise .invalidProfile)
  | some q => .next (State.respond { s with st := { s.st with psel := q } } .ok 0)

/-- RS.ENC: write the parity of the message in CW; no status field changes (R155). -/
def execRsEnc (s : State) : Result :=
  .next (State.respond { s with cw := encodeWord s.st.psel s.cw } .ok 0)

end Sys2Proof.Machine
end

