-- ==== Sys2Proof/Machine/System.lean ====
section
/-! DEFINITION. The system commands: NOP, STAT.RD, STAT.CLR, RESET (46_system_buffer.md R240 to R243). -/

namespace Sys2Proof.Machine

/-- NOP: no state is written, not even ST.LASTERR (R240). -/
def execNop (s : State) : Result := .next (s.respond .ok 0)

/-- STAT.RD: the status register in the data; reading clears nothing (R241). -/
def execStatRd (s : State) : Result := .next (s.respond .ok s.st.data)

/-- STAT.CLR: clear ST.LASTERR and ST.INV0 only (R242). -/
def execStatClr (s : State) : Result := .next (s.acknowledge.respond .ok 0)

/-- RESET: every item of R38 takes its reset value (R243). -/
def execReset (s : State) : Result := .next (s.toReset.respond .ok 0)

end Sys2Proof.Machine
end

