-- ==== Sys2Proof/Machine/Trit.lean ====
section
/-! DEFINITION. The trit converter and the base-243 packer: TRIT.B2U, TRIT.U2B, PACK243, UNPK243
(40_trit_pack.md R102, R103, R105, R106). None reads or writes any state but ST.LASTERR on a fault. -/

namespace Sys2Proof.Machine

/-- One lane of TRIT.B2U: the 2-bit two's-complement lane clamped and mapped by u = b + 1 (R101, R102). -/
def laneB2u (t : BitVec 2) : BitVec 2 := BitVec.ofInt 2 (balToUnb t.toInt)

/-- One lane of TRIT.U2B: the unsigned lane clamped and mapped by b = u − 1 (R101, R103). -/
def laneU2b (t : BitVec 2) : BitVec 2 := BitVec.ofInt 2 (unbToBal t.toNat)

/-- TRIT.B2U: 13 balanced trits to unbalanced, lane by lane (R102). -/
def execTritB2u (t : Vector (BitVec 2) 13) (s : State) : Result :=
  .next (s.respond .ok (lanesData (t.toList.map laneB2u)))

/-- TRIT.U2B: 13 unbalanced trits to balanced, lane by lane (R103). -/
def execTritU2b (t : Vector (BitVec 2) 13) (s : State) : Result :=
  .next (s.respond .ok (lanesData (t.toList.map laneU2b)))

/-- PACK243: k trits into one byte; k is checked before the trits (R105, R265). -/
def execPack243 (k : BitVec 3) (t : Vector (BitVec 2) 5) (s : State) : Result :=
  match countOperand k with
  | none => .next (s.raise .badOperand)
  | some n =>
    match groupOperand n t with
    | none => .next (s.raise .badOperand)
    | some ts => .next (s.respond .ok (BitVec.ofNat 28 (tritsValue ts)))

/-- UNPK243: one byte into k trits; k is checked before the byte (R106, R265). -/
def execUnpk243 (k : BitVec 3) (byte : BitVec 8) (s : State) : Result :=
  match countOperand k with
  | none => .next (s.raise .badOperand)
  | some n =>
    if 3 ^ n ≤ byte.toNat then .next (s.raise .badOperand)
    else .next (s.respond .ok (tritsData (digits byte.toNat n)))

end Sys2Proof.Machine
end

