-- ==== Sys2Proof/Machine/Dispatch.lean ====
section
/-! DEFINITION. The meaning of every command (30_encoding.md R78, R81 step 4): one arm per constructor. -/

namespace Sys2Proof.Machine

def exec (i : Instr) (s : State) : Host.Outcome State Fault Refusal :=
  match i with
  | .nop => Sys2Proof.Machine.execNop s
  | .statRd => Sys2Proof.Machine.execStatRd s
  | .statClr => Sys2Proof.Machine.execStatClr s
  | .reset => Sys2Proof.Machine.execReset s
  | .tritB2u t => Sys2Proof.Machine.execTritB2u t s
  | .tritU2b t => Sys2Proof.Machine.execTritU2b t s
  | .pack243 k t => Sys2Proof.Machine.execPack243 k t s
  | .unpk243 k byte => Sys2Proof.Machine.execUnpk243 k byte s
  | .gfAdd a b => Sys2Proof.Machine.execGfAdd a b s
  | .gfSub a b => Sys2Proof.Machine.execGfSub a b s
  | .gfMul a b => Sys2Proof.Machine.execGfMul a b s
  | .gfInv a => Sys2Proof.Machine.execGfInv a s
  | .gfPowa e => Sys2Proof.Machine.execGfPowa e s
  | .bufWr buf idx sym => Sys2Proof.Machine.execBufWr buf idx sym s
  | .bufRd buf idx => Sys2Proof.Machine.execBufRd buf idx s
  | .rsCfg p => Sys2Proof.Machine.execRsCfg p s
  | .rsEnc => Sys2Proof.Machine.execRsEnc s
  | .rsSyn => Sys2Proof.Machine.execRsSyn s
  | .rsBm => Sys2Proof.Machine.execRsBm s
  | .rsChien => Sys2Proof.Machine.execRsChien s
  | .rsForney => Sys2Proof.Machine.execRsForney s
  | .rsDec => Sys2Proof.Machine.execRsDec s
  | .crcInit => Sys2Proof.Machine.execCrcInit s
  | .crcTrit t => Sys2Proof.Machine.execCrcTrit t s
  | .crcSym a => Sys2Proof.Machine.execCrcSym a s
  | .crcFin => Sys2Proof.Machine.execCrcFin s
  | .crcRd => Sys2Proof.Machine.execCrcRd s
  | .pixLd n y cb cr => Sys2Proof.Machine.execPixLd n y cb cr s
  | .pixRd n => Sys2Proof.Machine.execPixRd n s
  | .pixPack2 => Sys2Proof.Machine.execPixPack2 s
  | .pixPack1 => Sys2Proof.Machine.execPixPack1 s
  | .pixUnpk2 => Sys2Proof.Machine.execPixUnpk2 s
  | .pixUnpk1 => Sys2Proof.Machine.execPixUnpk1 s

end Sys2Proof.Machine
end

