-- ==== Sys2Proof/Machine/Command.lean ====
section
/-! DEFINITION. One command word, one hardware reset, and how the host's events reach them (00_scope.md R7, R8;
30_encoding.md R81; 70_reset_and_hazards.md R290). What Machine/Step.lean calls. -/

namespace Sys2Proof.Machine

/-- A command word: decoded, then run; a word that is not decoded is the fault `IllegalCommand` (R79, R81). -/
def runWord (w : Word) (s : State) : Result :=
  match decode w with
  | .ok i => exec i s
  | .error _ => .next (s.raise .illegalCommand)

/-- One event of the host. Hardware reset has the effect of R291 and, being no command, no response (R290). -/
def runEvent (e : HostEvent) (s : State) : Result :=
  match e with
  | .command w => runWord w s
  | .hardwareReset => .next s.toReset

/-- The oldest pending event is taken and run; with none T3CORE does nothing (R8). -/
def takeEvent (s : State) : Result :=
  match s.pending with
  | [] => .next s
  | e :: rest => runEvent e { s with pending := rest }

/-- The host presents command words, to be taken after those already pending (R7, R8). -/
def State.present (s : State) (ws : List Word) : State :=
  { s with pending := s.pending ++ ws.map HostEvent.command }

/-- The command word the next step takes, put in front of whatever is pending. -/
def State.withNextCommand (s : State) (w : Word) : State := { s with pending := .command w :: s.pending }

end Sys2Proof.Machine
end

