-- ==== Sys2Proof/Machine/Step.lean ====
section
/-! DEFINITION. The step of the machine and where it fetches its next instruction (00_scope.md R7, R8). -/

namespace Sys2Proof.Machine

/-- One step: the host's oldest pending event is performed completely (R7, R59). -/
def step (s : State) : Host.Outcome State Fault Refusal := takeEvent s

/-- `s` with the instruction whose low `nbits` bits are those of `w` as the command word the very next step takes.
T3CORE fetches nothing: the host presents the word (10_state.md R21, 70_reset_and_hazards.md R292; log 5). -/
def State.withFetchWord (s : State) (nbits w : Nat) : State := s.withNextCommand (tableWord nbits w)

end Sys2Proof.Machine
end

