-- ==== Sys2Proof/Machine/Assembler.lean ====
section
/-! DEFINITION. The assembler syntax of 30_encoding.md R82, from a mnemonic and its operands to a command. It is the
host's and no part of a step. Splitting a line of text into a mnemonic and operands (commas, comments, decimal and
0x numerals) is not modelled (log 14). -/

namespace Sys2Proof.Machine

/-- An operand as the assembler reads it: a number, or a buffer's name (R82). -/
inductive AsmOperand where
  | num (v : Int)
  | name (n : String)
deriving DecidableEq, Repr

/-- A number as an unsigned field of n bits, if it fits. -/
def asmUnsigned (n : Nat) (v : Int) : Option (BitVec n) :=
  if 0 ≤ v ∧ v < 2 ^ n then some (BitVec.ofInt n v) else none

/-- A number as a two's-complement field of n + 1 bits, if it fits. -/
def asmSigned (n : Nat) (v : Int) : Option (BitVec (n + 1)) :=
  if -(2 ^ n) ≤ v ∧ v < 2 ^ n then some (BitVec.ofInt (n + 1) v) else none

/-- Lanes in order from lane 0; lanes not written are 0 (R82). -/
def asmLanes (n : Nat) (lane : Int → Option (BitVec 2)) (vs : List Int) : Option (Vector (BitVec 2) n) :=
  if n < vs.length then none
  else (vs.mapM lane).map fun ls => Vector.ofFn fun i => ls.getD i.val 0

/-- The id a buffer's name stands for (R51, R82). -/
def bufferNamed (n : String) : Option Int :=
  if n = "CW" then some 0
  else if n = "SYN" then some 1
  else if n = "SIG" then some 2
  else if n = "OMG" then some 3
  else if n = "W" then some 4
  else if n = "LOC" then some 5
  else none

/-- An operand's number. -/
def AsmOperand.value : AsmOperand → Option Int
  | .num v => some v
  | .name n => bufferNamed n

/-- Is it a number, as every operand but a buffer must be? -/
def AsmOperand.isNum : AsmOperand → Bool
  | .num _ => true
  | .name _ => false

/-- The commands that take no operand (R82). -/
def assembleBare (m : String) : Option Instr :=
  (opcodeTable.find? fun r => r.mnemonic == m && r.mask == 0xFFFFFFFF#32).map fun r => r.build r.pattern

/-- The commands whose operands are all numbers, in the order of R82. -/
def assembleNumbers (m : String) (vs : List Int) : Option Instr :=
  if m = "TRIT.B2U" then (asmLanes 13 (asmSigned 1) vs).map .tritB2u
  else if m = "TRIT.U2B" then (asmLanes 13 (asmUnsigned 2) vs).map .tritU2b
  else
    match vs with
    | [] => assembleBare m
    | [a] =>
      if m = "GF.INV" then (asmUnsigned 5 a).map .gfInv
      else if m = "CRC.SYM" then (asmUnsigned 5 a).map .crcSym
      else if m = "GF.POWA" then (asmUnsigned 16 a).map .gfPowa
      else if m = "RS.CFG" then (asmUnsigned 8 a).map .rsCfg
      else if m = "CRC.TRIT" then (asmUnsigned 2 a).map .crcTrit
      else if m = "PIX.RD" then (asmUnsigned 1 a).map .pixRd
      else if m = "PACK243" then (asmUnsigned 3 a).map fun k => .pack243 k (Vector.replicate 5 0)
      else none
    | a :: b :: rest =>
      if m = "PACK243" then do
        let k ← asmUnsigned 3 a
        let t ← asmLanes 5 (asmUnsigned 2) (b :: rest)
        some (.pack243 k t)
      else if m = "PIX.LD" then
        match rest with
        | [cb, cr] => do
          let n ← asmUnsigned 1 a
          let y ← asmSigned 8 b
          let u ← asmSigned 7 cb
          let v ← asmSigned 7 cr
          some (.pixLd n y u v)
        | _ => none
      else if rest ≠ [] then none
      else if m = "UNPK243" then do
        let k ← asmUnsigned 3 a
        let v ← asmUnsigned 8 b
        some (.unpk243 k v)
      else do
        let x ← asmUnsigned 5 a
        let y ← asmUnsigned 5 b
        if m = "GF.ADD" then some (.gfAdd x y)
        else if m = "GF.SUB" then some (.gfSub x y)
        else if m = "GF.MUL" then some (.gfMul x y)
        else none

/-- Assemble one command (R82): `none` where the mnemonic, the number of operands or an operand's range is not the
syntax's. Only the first operand of BUF.WR and BUF.RD may be a name. -/
def assemble (m : String) (ops : List AsmOperand) : Option Instr :=
  match ops with
  | buf :: rest =>
    if rest.any fun o => !o.isNum then none
    else if m = "BUF.WR" ∨ m = "BUF.RD" then do
      let b ← (← buf.value.map (asmUnsigned 3))
      match m == "BUF.WR", rest.filterMap AsmOperand.value with
      | true, [i, v] => do
        let idx ← asmUnsigned 5 i
        let sym ← asmUnsigned 5 v
        some (.bufWr b idx sym)
      | false, [i] => do
        let idx ← asmUnsigned 5 i
        some (.bufRd b idx)
      | _, _ => none
    else if buf.isNum then assembleNumbers m (ops.filterMap AsmOperand.value)
    else none
  | [] => assembleNumbers m []

end Sys2Proof.Machine
end

