-- ==== Sys2Proof/Machine/Procedures.lean ====
section
/-! DEFINITION. Host procedures made of several commands, which the spec describes beside the commands: packing a
vector of trits of any length (40_trit_pack.md R107). None of it is performed by T3CORE; the host iterates. -/

namespace Sys2Proof.Machine

/-- The groups of a vector: five trits each, the last one shorter when the length is no multiple of five (R107). -/
def tritGroups : List Trit → List (List Trit)
  | a :: b :: c :: d :: e :: rest => [a, b, c, d, e] :: tritGroups rest
  | [] => []
  | short => [short]

/-- The PACK243 command of a group of at most five trits. -/
def packCommand (g : List Trit) : Instr :=
  .pack243 (BitVec.ofNat 3 g.length) (Vector.ofFn fun i => BitVec.ofNat 2 (g.getD i.val 0).val)

/-- The UNPK243 command for a group of k trits. -/
def unpackCommand (k : Nat) (byte : Byte) : Instr := .unpk243 (BitVec.ofNat 3 k) byte

/-- The commands that pack a vector: one for each group (R107). -/
def packCommands (v : List Trit) : List Instr := (tritGroups v).map packCommand

/-- `pack243(trits)`: one byte for each group (R107). -/
def packVector (v : List Trit) : List Byte := (tritGroups v).map fun g => BitVec.ofNat 8 (tritsValue g)

/-- `unpack243(bytes, n)`: the digits of each byte, five for every byte but the last (R107). R107 does not say what the
host gets for a byte of 3^k or more, or for a byte count other than ⌈n/5⌉: `none` there is the model's choice
(DESIGN CHOICE, log 17); UNPK243 itself refuses such a byte (R106). -/
def unpackVector : List Byte → Nat → Option (List Trit)
  | [], n => if n = 0 then some [] else none
  | b :: bs, n =>
    if n = 0 ∨ 3 ^ min n 5 ≤ b.toNat then none
    else (unpackVector bs (n - 5)).map fun ts => digits b.toNat (min n 5) ++ ts

/-- Commands run one after another on a state, each through `exec`, stopping at the first that gives no next
state. -/
def execAll : List Instr → State → Result
  | [], s => .next s
  | i :: is, s =>
    match exec i s with
    | .next t => execAll is t
    | .fault f => .fault f
    | .refused r => .refused r

end Sys2Proof.Machine
end

