-- ==== Sys2Proof/WellFormed.lean ====
section
/-! DEFINITION. Well-formed commands: those whose operand fields hold values the command accepts
(30_encoding.md R72, R73, R74; 60_exceptions.md R261). Every command decodes and encodes, well-formed or not; the
ones that are not well-formed are exactly those that end in a fault of R262 with code 2, 3 or 4. Each check reads
the command alone, as R260 says of every fault. -/

namespace Sys2Proof.WellFormed

/-- A symbol field holds 0..26 (R73). -/
def symbolField (a : BitVec 5) : Bool := a.toNat ≤ 26

/-- A trit field holds 0, 1 or 2 (R72). -/
def tritField (t : BitVec 2) : Bool := t.toNat ≤ 2

/-- A trit count is 1..5 (R105, R106). -/
def groupCount (k : BitVec 3) : Bool := 1 ≤ k.toNat && k.toNat ≤ Config.groupTrits

/-- Lanes below k hold trits and lanes at or above k are zero (R105). -/
def groupLanes (k : BitVec 3) (t : Vector (BitVec 2) 5) : Bool :=
  (List.finRange 5).all fun i => if i.val < k.toNat then tritField t[i] else t[i] == 0

/-- A packed byte of k trits is below 3^k (R106). -/
def groupByte (k : BitVec 3) (byte : BitVec 8) : Bool := byte.toNat < 3 ^ k.toNat

/-- The length of each buffer by id; 0 where no buffer has the id (20_memory.md R51). -/
def bufferLength (buf : BitVec 3) : Nat := [26, 8, 9, 8, 9, 26, 0, 0].getD buf.toNat 0

/-- (buf, idx) is an address of the buffer space (20_memory.md R51). -/
def bufferAddress (buf : BitVec 3) (idx : BitVec 5) : Bool := idx.toNat < bufferLength buf

/-- The value is one the buffer can hold: a symbol, and for LOC (id 5) 0 or 1 (R51, R244). -/
def bufferValue (buf : BitVec 3) (sym : BitVec 5) : Bool :=
  symbolField sym && (buf.toNat != 5 || sym.toNat ≤ 1)

/-- A profile selector is 0..3 (R154). -/
def profileField (p : BitVec 8) : Bool := p.toNat ≤ 3

end Sys2Proof.WellFormed

namespace Sys2Proof

/-- The command's operand fields hold values its rule accepts (R261): its execution ends in no fault. -/
def Instr.wellFormed : Instr → Bool
  | .nop | .statRd | .statClr | .reset => true
  | .tritB2u _ | .tritU2b _ => true
  | .pack243 k t => WellFormed.groupCount k && WellFormed.groupLanes k t
  | .unpk243 k byte => WellFormed.groupCount k && WellFormed.groupByte k byte
  | .gfAdd a b | .gfSub a b | .gfMul a b => WellFormed.symbolField a && WellFormed.symbolField b
  | .gfInv a => WellFormed.symbolField a
  | .gfPowa _ => true
  | .bufWr buf idx sym => WellFormed.bufferAddress buf idx && WellFormed.bufferValue buf sym
  | .bufRd buf idx => WellFormed.bufferAddress buf idx
  | .rsCfg p => WellFormed.profileField p
  | .rsEnc | .rsSyn | .rsBm | .rsChien | .rsForney | .rsDec => true
  | .crcInit | .crcFin | .crcRd => true
  | .crcTrit t => WellFormed.tritField t
  | .crcSym a => WellFormed.symbolField a
  | .pixLd _ _ _ _ | .pixRd _ => true
  | .pixPack2 | .pixPack1 | .pixUnpk2 | .pixUnpk1 => true

end Sys2Proof
end

