-- ==== Sys2Proof/Safety.lean ====
section
/-! DEFINITION. The terms claims are made in: the invariant of the state, what a response says, what a fault is, and
what a codeword is. Nothing here is used by the machine. -/

namespace Sys2Proof.Machine

/-- A quantized pixel (R22, R200). -/
abbrev Pixel.InRange (p : Pixel) : Prop :=
  0 ≤ p.y ∧ p.y ≤ 242 ∧ -40 ≤ p.cb ∧ p.cb ≤ 40 ∧ -40 ≤ p.cr ∧ p.cr ≤ 40

/-- The code of a response, bits 31..28 (R75). -/
def responseCode (w : Word) : Nat := (w.extractLsb' 28 4).toNat

/-- The data of a response, bits 27..0 (R75). -/
def responseData (w : Word) : Data := w.extractLsb' 0 28

/-- What every reachable state satisfies and its types do not say: the pixel registers hold quantized pixels (R22),
ST.LEN is 0..8 and ST.NROOT 0..26 (R29, R35), and every response given has a code of R76 (U18). -/
abbrev State.Inv (s : State) : Prop :=
  (∀ n : Fin 2, (s.px[n]).InRange) ∧ s.st.len ≤ 8 ∧ s.st.nroot ≤ 26 ∧
    (s.responses.all fun w => responseCode w ≤ 5) = true

/-- The codes of the class `fault` of R260: 1 to 4. -/
def ResultCode.isFault : ResultCode → Bool
  | .illegalCommand | .badOperand | .outOfRange | .invalidProfile => true
  | .ok | .rsUncorrectable => false

/-- The fault of a command whose operand fields hold a value its rule refuses (R261, R265); for the other commands
the value is not used. -/
def faultOf : Instr → ResultCode
  | .bufWr buf idx _ => if WellFormed.bufferAddress buf idx then .badOperand else .outOfRange
  | .bufRd _ _ => .outOfRange
  | .rsCfg _ => .invalidProfile
  | _ => .badOperand

/-- The commands that can end `RsUncorrectable` (R260, R261). -/
def mayBeUncorrectable (i : Instr) : Bool := i = .rsBm || i = .rsChien || i = .rsForney || i = .rsDec

/-- A word is a codeword of a profile exactly when its r syndromes are all zero (R156). -/
def IsCodeword (p : Profile) (cw : Vector Sym 26) : Prop := ∀ j < p.r, syndrome cw j = 0

/-- The positions at which two words differ. -/
def differences (a b : Vector Sym 26) : Nat := (List.finRange 26).countP fun i => a[i] != b[i]

/-- a ⊕ b, symbol by symbol. -/
def wordAdd (a b : Vector Sym 26) : Vector Sym 26 := Vector.ofFn fun i => gfAdd a[i] b[i]

/-- The weight of a word: how many of its symbols are not zero. -/
def weight (e : Vector Sym 26) : Nat := (List.finRange 26).countP fun i => e[i] != 0

/-- A run of k steps goes on to its end: no step stops. -/
def GoesOn (k : Nat) (s : State) : Prop := ∃ t, Sys2Proof.core.run k s = .next t

/-- A part of the state with writers of its own in the tables of R20 and R29; ST.LASTERR, which every response may
write, is apart. -/
inductive Part where
  | px
  | cw
  | syn
  | sig
  | omg
  | w
  | loc
  | crc
  | psel
  | sz
  | unc
  | inv0
  | len
  | nroot
deriving DecidableEq, Repr

/-- The part holds the same in both states. -/
def Part.same (s t : State) : Part → Prop
  | .px => t.px = s.px
  | .cw => t.cw = s.cw
  | .syn => t.syn = s.syn
  | .sig => t.sig = s.sig
  | .omg => t.omg = s.omg
  | .w => t.w = s.w
  | .loc => t.loc = s.loc
  | .crc => t.crc = s.crc
  | .psel => t.st.psel = s.st.psel
  | .sz => t.st.sz = s.st.sz
  | .unc => t.st.unc = s.st.unc
  | .inv0 => t.st.inv0 = s.st.inv0
  | .len => t.st.len = s.st.len
  | .nroot => t.st.nroot = s.st.nroot

/-- The part of the buffer with an id (R51). -/
def bufferParts (buf : BitVec 3) : List Part :=
  [[.cw], [.syn], [.sig], [.omg], [.w], [.loc], [], []].getD buf.toNat []

/-- The parts each command may write: the columns "written by" of R20 and R29, and everything for RESET (R243). -/
def writes : Instr → List Part
  | .reset => [.px, .cw, .syn, .sig, .omg, .w, .loc, .crc, .psel, .sz, .unc, .inv0, .len, .nroot]
  | .statClr => [.inv0]
  | .gfInv _ => [.inv0]
  | .bufWr buf _ _ => bufferParts buf
  | .rsCfg _ => [.psel]
  | .rsEnc => [.cw]
  | .rsSyn => [.syn, .sz, .unc]
  | .rsBm => [.sig, .len, .unc]
  | .rsChien => [.loc, .nroot, .unc]
  | .rsForney => [.omg, .cw, .unc]
  | .rsDec => [.syn, .sz, .unc, .sig, .len, .loc, .nroot, .omg, .cw]
  | .crcInit | .crcTrit _ | .crcSym _ | .crcFin => [.crc]
  | .pixLd _ _ _ _ | .pixUnpk2 | .pixUnpk1 => [.px]
  | .pixPack2 | .pixPack1 => [.w]
  | .nop | .statRd | .tritB2u _ | .tritU2b _ | .pack243 _ _ | .unpk243 _ _ => []
  | .gfAdd _ _ | .gfSub _ _ | .gfMul _ _ | .gfPowa _ | .bufRd _ _ | .crcRd | .pixRd _ => []

/-- The (match, mask) pairs of the opcode map as R78 prints them, apart from the decoder's own table. -/
def printedRows : List (Word × Word) :=
  [ (0x00000000#32, 0xFFFFFFFF#32), (0x04000000#32, 0xFFFFFFFF#32), (0x08000000#32, 0xFFFFFFFF#32), (0x0C000000#32, 0xFFFFFFFF#32),
    (0x20000000#32, 0xFC000000#32), (0x24000000#32, 0xFC000000#32), (0x28000000#32, 0xFFFFE000#32), (0x2C000000#32, 0xFFFFF800#32),
    (0x40000000#32, 0xFFFFFC00#32), (0x44000000#32, 0xFFFFFC00#32), (0x48000000#32, 0xFFFFFC00#32), (0x4C000000#32, 0xFFFFFFE0#32),
    (0x50000000#32, 0xFFFF0000#32), (0x60000000#32, 0xFC7FE0E0#32), (0x64000000#32, 0xFC7FE0FF#32), (0x80000000#32, 0xFFFFFF00#32),
    (0x84000000#32, 0xFFFFFFFF#32), (0x88000000#32, 0xFFFFFFFF#32), (0x8C000000#32, 0xFFFFFFFF#32), (0x90000000#32, 0xFFFFFFFF#32),
    (0x94000000#32, 0xFFFFFFFF#32), (0x98000000#32, 0xFFFFFFFF#32), (0xA0000000#32, 0xFFFFFFFF#32), (0xA4000000#32, 0xFFFFFFFC#32),
    (0xA8000000#32, 0xFFFFFFE0#32), (0xAC000000#32, 0xFFFFFFFF#32), (0xB0000000#32, 0xFFFFFFFF#32), (0xC0000000#32, 0xFC000000#32),
    (0xC4000000#32, 0xFFFFFFFE#32), (0xC8000000#32, 0xFFFFFFFF#32), (0xCC000000#32, 0xFFFFFFFF#32), (0xD0000000#32, 0xFFFFFFFF#32),
    (0xD4000000#32, 0xFFFFFFFF#32) ]

/-- The 31 unassigned opcodes as R79 prints them. -/
def printedUnassigned : List Nat :=
  [0x04, 0x05, 0x06, 0x07, 0x0C, 0x0D, 0x0E, 0x0F, 0x15, 0x16, 0x17, 0x1A, 0x1B, 0x1C, 0x1D, 0x1E, 0x1F, 0x27, 0x2D,
    0x2E, 0x2F, 0x36, 0x37, 0x38, 0x39, 0x3A, 0x3B, 0x3C, 0x3D, 0x3E, 0x3F]

/-- The 2-bit lane i of response data (R77). -/
def dataLane (d : Data) (i : Nat) : BitVec 2 := d.extractLsb' (2 * i) 2

/-- The thirteen lanes of response data as an operand of the trit converter. -/
def dataLanes (d : Data) : Vector (BitVec 2) 13 := Vector.ofFn fun i => dataLane d i.val

/-- σ′ with the coefficients R178 lists, D[0] to D[7]. -/
def printedDerivative (sig : Vector Sym 9) : Vector Sym 8 :=
  #v[sig[1], gfAdd sig[2] sig[2], 0, sig[4], gfAdd sig[5] sig[5], 0, sig[7], gfAdd sig[8] sig[8]]

/-- α^−pos with α = 3, as a power (R124, R175, R179). -/
def inverseLocator (pos : Nat) : Sym := gfPow 3 ((26 - pos) % 26)

/-- The commands that compute the CRC of a message of trits (R222, R296). -/
def crcCommands (m : List Trit) : List Instr :=
  .crcInit :: (m.map fun t => .crcTrit (BitVec.ofNat 2 t.val)) ++ [.crcFin]

/-- `s` after one more response and with nothing else changed. -/
def State.answered (s : State) (w : Word) : State := { s with responses := s.responses ++ [w] }

/-- `s` after the response `w` with `f` in ST.LASTERR and nothing else changed (R262). -/
def State.faulted (s : State) (f : ResultCode) (w : Word) : State :=
  { s with st := { s.st with lasterr := f }, responses := s.responses ++ [w] }

/-- The latest response. -/
def State.lastResponse (s : State) : Word := s.responses.getLast?.getD 0

/-- The id of each buffer (R51). -/
def BufId.id : BufId → BitVec 3
  | .cw => 0
  | .syn => 1
  | .sig => 2
  | .omg => 3
  | .w => 4
  | .loc => 5

/-- The connection polynomial c generates the first r syndromes with a register of length L: c₀ is 1 and
Σ_{i=0..L} c_i ⊗ SYN[n−i] is 0 for every n with L ≤ n < r (R173). -/
def Annihilates (r : Nat) (syn : Vector Sym 8) (c : Nat → Sym) (L : Nat) : Prop :=
  c 0 = 1 ∧ ∀ n, L ≤ n → n < r → gfSum (L + 1) (fun i => gfMul (c i) (coeff syn (n - i))) = 0

/-- How many entries of LOC are 1. -/
def locCount (loc : Vector Bool 26) : Nat := (List.finRange 26).countP fun i => loc[i]

/-- Digit i of a natural number in base 3. -/
def digit3 (n i : Nat) : Nat := n / 3 ^ i % 3

/-- Trit T[i] of the word buffer (R10). -/
def State.trit (s : State) (i : Nat) : Nat := (wordTrit s.w i).val

end Sys2Proof.Machine
end

