-- ==== Sys2Proof/Certificates/Slice0/Obligations.lean ====
section
/-! DEFINITION. The statements about T3CORE, one `def Obligations.<Name> : Prop` each, in the order of
OBLIGATIONS.json. A result is written as the whole next state, so it is its own frame: `s.answered w` is `s` with the
response `w` added, `s.faulted f w` is that with `f` in ST.LASTERR, and a record update lists every other field that
changes. That State holds the host's events still to come (`pending`) and the responses already given (`responses`),
that no command takes an event away and that the earlier responses are kept is the model's form of the command port in
every statement here and no rule's (DESIGN CHOICE: log 1, log 2; over RESET and hardware reset, log 4). -/

open Sys2Proof Sys2Proof.Machine

/-! ### Encoding -/

/-- R70, R71, R78, R81: the encoding of every command, with any operand values, decodes to that command. -/
def Obligations.DecodeOfEncode : Prop := ∀ i : Instr, decode (encode i) = .ok i

/-- R70, R71, R78: each command word stands for one command: a word that decodes is that command's encoding, so no
bit of it is ignored. -/
def Obligations.EncodeOfDecode : Prop := ∀ (w : Word) (i : Instr), decode w = .ok i → encode i = w

/-- R79: a word that satisfies no printed row of R78 faults, among them (a) the words of the 31 unassigned opcodes
and (b) the words of an assigned opcode with a must-be-zero bit set. A word that satisfies a row is a command. -/
def Obligations.UnselectedWordsAreIllegal : Prop :=
  ∀ (w : Word) (s : State),
    ((∀ row ∈ printedRows, w &&& row.2 ≠ row.1) →
      runWord w s = .next (s.faulted .illegalCommand 0x10000000#32)) ∧
    ((w.extractLsb' 26 6).toNat ∈ printedUnassigned →
      runWord w s = .next (s.faulted .illegalCommand 0x10000000#32)) ∧
    (∀ row ∈ printedRows, w.extractLsb' 26 6 = row.1.extractLsb' 26 6 → w &&& row.2 ≠ row.1 →
      runWord w s = .next (s.faulted .illegalCommand 0x10000000#32)) ∧
    ((∃ row ∈ printedRows, w &&& row.2 = row.1) → ∃ i, decode w = .ok i ∧ runWord w s = exec i s)

/-- Words the spec prints in the examples of its command rules decode to the commands they are printed for. -/
def Obligations.ExampleWordsDecode : Prop :=
  decode 0x00000000#32 = .ok .nop ∧
  decode 0x200000B4#32 = .ok (.tritB2u #v[0, 1, 3, 2, 0, 0, 0, 0, 0, 0, 0, 0, 0]) ∧
  decode 0x28001521#32 = .ok (.pack243 5 #v[1, 0, 2, 0, 1]) ∧
  decode 0x2C000564#32 = .ok (.unpk243 5 100) ∧
  decode 0x40000123#32 = .ok (.gfAdd 3 9) ∧
  decode 0x44000020#32 = .ok (.gfSub 0 1) ∧
  decode 0x50000005#32 = .ok (.gfPowa 5) ∧
  decode 0x6000191A#32 = .ok (.bufWr 0 25 26) ∧
  decode 0x64800800#32 = .ok (.bufRd 1 8) ∧
  decode 0x80000001#32 = .ok (.rsCfg 1) ∧
  decode 0x98000000#32 = .ok .rsDec ∧
  decode 0xA8000005#32 = .ok (.crcSym 5) ∧
  decode 0xC0FF807F#32 = .ok (.pixLd 0 255 0x80 0x7F) ∧
  decode 0xC4000001#32 = .ok (.pixRd 1)

/-- R54: on a byte-wide link byte j of a word is its bits 8j+7..8j, and the bytes of a command give that command and
leave the bytes after it. -/
def Obligations.LinkIsLittleEndian : Prop :=
  ∀ (w : Word) (rest : List Byte),
    (linkBytes w).length = 4 ∧
    (∀ j < 4, (linkBytes w)[j]? = some (w.extractLsb' (8 * j) 8)) ∧
    wordOfLink (linkBytes w ++ rest) = some (w, rest) ∧
    (∀ i, decode w = .ok i → decodeBytes (linkBytes w ++ rest) = .ok (i, rest)) ∧
    (∀ e, decode w = .error e → decodeBytes (linkBytes w ++ rest) = .error e)

/-- R82: every command can be written in the assembler syntax. -/
def Obligations.AssemblerReachesEveryCommand : Prop := ∀ i : Instr, ∃ m ops, assemble m ops = some i

/-! ### Steps and runs -/

/-- R7, R81: a step takes the oldest pending command word from the port and does nothing else around running it. A
word that decodes runs the decoded command, any other word is the fault; the word of `withFetchWord` is the one the
next step takes. That the port is a list of pending events is the model's (log 1, log 5). -/
def Obligations.StepRunsDecodedCommand : Prop :=
  (∀ (s : State) (w : Word) (rest : List HostEvent), s.pending = .command w :: rest →
    (∀ i, decode w = .ok i → step s = exec i { s with pending := rest }) ∧
    (∀ e, decode w = .error e →
      step s = .next (State.faulted { s with pending := rest } .illegalCommand 0x10000000#32))) ∧
  (∀ (s : State) (w : Word), step (s.withFetchWord 32 w.toNat) = runWord w s)

/-- R8, R290, R291: with nothing pending the state does not change, and a pending hardware reset gives the reset state.
That the port and the past responses stay is the model's (log 1, log 2, log 4). -/
def Obligations.StepIdlesAndResets : Prop :=
  ∀ s : State,
    (s.pending = [] → step s = .next s) ∧
    (∀ rest, s.pending = .hardwareReset :: rest →
      step s = .next { State.reset with pending := rest, responses := s.responses })

/-- R7, R264: T3CORE is total: no run of any length from any state stops. That a run is a run over the pending events,
idle once there are none, is the model's (log 1, log 3). -/
def Obligations.EveryRunGoesOn : Prop := ∀ (k : Nat) (s : State), GoesOn k s

/-- From the rules R7, R59 and R75: a run over two lists of command words is the run over the first and then the run
over the second, and each run gives exactly one response for each of its words, in command order. The model's choice
and none of these rules': that the words still to come stand in `pending` and are used up by the run (log 1), that the
responses stand in `responses` after those given before (log 2), and that a RESET among the words keeps both, so that
the run goes on with the words after it and the earlier responses stay (log 4: DESIGN CHOICE, unsafe for what is still
to come after a reset). -/
def Obligations.RunsFoldAndAnswerInOrder : Prop :=
  ∀ (ws vs : List Word) (s : State), s.pending = [] →
    ∃ t u rs qs,
      Sys2Proof.core.run ws.length (s.present ws) = .next t ∧
      Sys2Proof.core.run vs.length (t.present vs) = .next u ∧
      Sys2Proof.core.run (ws.length + vs.length) (s.present (ws ++ vs)) = .next u ∧
      t.pending = [] ∧ u.pending = [] ∧
      t.responses = s.responses ++ rs ∧ rs.length = ws.length ∧
      u.responses = t.responses ++ qs ∧ qs.length = vs.length

/-- R22, R29, R35, R76: every step keeps the ranges of the pixel registers, of ST.LEN and of ST.NROOT, and gives no
response code above 5. That the ranges are an invariant and not types is the model's (log 8), as is the list of
responses (log 2). -/
def Obligations.StepKeepsInvariant : Prop := ∀ s t : State, s.Inv → step s = .next t → t.Inv

/-- R38: the invariant holds at reset. -/
def Obligations.ResetHasInvariant : Prop := State.reset.Inv

/-- R38, R243, R291: the reset state has every item zero and profile P1, and the RESET command gives that state with
an OK response. That reset keeps the port and the past responses is the model's (log 2, log 4). -/
def Obligations.ResetZeroesEverything : Prop :=
  (∀ n : Fin 2, State.reset.px[n] = ⟨0, 0, 0⟩) ∧
  (∀ i : Fin 26, State.reset.cw[i] = 0) ∧ (∀ i : Fin 8, State.reset.syn[i] = 0) ∧
  (∀ i : Fin 9, State.reset.sig[i] = 0) ∧ (∀ i : Fin 8, State.reset.omg[i] = 0) ∧
  (∀ i : Fin 9, State.reset.w[i] = 0) ∧ (∀ i : Fin 26, State.reset.loc[i] = false) ∧
  (∀ i : Fin 12, State.reset.crc[i] = 0) ∧
  State.reset.st.psel = .p1 ∧ State.reset.st.sz = false ∧ State.reset.st.unc = false ∧
  State.reset.st.inv0 = false ∧ State.reset.st.lasterr = .ok ∧ State.reset.st.len = 0 ∧
  State.reset.st.nroot = 0 ∧
  ∀ s : State,
    exec .reset s =
      .next { State.reset with pending := s.pending, responses := s.responses ++ [0x00000000#32] }

/-! ### Faults, result status and frames -/

/-- R262: a command that ends in a fault changes ST.LASTERR and nothing else, answers the code with zero data, and
T3CORE takes the next command, whatever its word. -/
def Obligations.FaultChangesOnlyLasterr : Prop :=
  ∀ (w : Word) (s : State), ∃ (t : State) (c : ResultCode) (d : Data),
    runWord w s = .next t ∧ t.responses = s.responses ++ [c.code ++ d] ∧
    (c.isFault = true → t = s.faulted c (c.code ++ 0#28) ∧ ∀ v, ∃ u, runWord v t = .next u)

/-- R260, R261, R265: a command whose operand fields hold a refused value faults with the code of the first check that
fails, whatever the state; any other command ends OK, or `RsUncorrectable` where R261 lists it. -/
def Obligations.FaultsAreTheRefusedOperands : Prop :=
  ∀ (i : Instr) (s : State),
    if i.wellFormed = true then
      ∃ (t : State) (c : ResultCode) (d : Data), exec i s = .next t ∧ t.responses = s.responses ++ [c.code ++ d] ∧
        (c = .ok ∨ c = .rsUncorrectable ∧ mayBeUncorrectable i = true)
    else exec i s = .next (s.faulted (faultOf i) ((faultOf i).code ++ 0#28))

/-- R34: ST.LASTERR is the code of the latest response that was not OK; an OK response keeps it, but for STAT.CLR and
RESET (and hardware reset), which clear it. A fault changes nothing else. -/
def Obligations.LasterrFollowsTheResponses : Prop :=
  (∀ (w : Word) (s : State), ∃ (t : State) (c : ResultCode) (d : Data),
    runWord w s = .next t ∧ t.responses = s.responses ++ [c.code ++ d] ∧
    t.st.lasterr =
      (if c ≠ .ok then c
      else if w = 0x08000000#32 ∨ w = 0x0C000000#32 then .ok
      else s.st.lasterr) ∧
    (c.isFault = true → t = s.faulted c (c.code ++ d))) ∧
  (∀ s : State, ∃ t, runEvent .hardwareReset s = .next t ∧ t.st.lasterr = .ok) ∧
  State.reset.st.lasterr = .ok

/-- R182, R263: a command that ends `RsUncorrectable` leaves CW as it was, sets ST.UNC and ST.LASTERR, and gives the
same answer when it is presented again. -/
def Obligations.UncorrectableKeepsTheWord : Prop :=
  ∀ (i : Instr) (s : State), ∃ (t : State) (c : ResultCode) (d : Data),
    exec i s = .next t ∧ t.responses = s.responses ++ [c.code ++ d] ∧
    (c = .rsUncorrectable →
      t.cw = s.cw ∧ t.st.unc = true ∧ t.st.lasterr = .rsUncorrectable ∧
        ∃ u, exec i t = .next u ∧ u.responses = t.responses ++ [c.code ++ d] ∧ u.cw = s.cw)

/-- From R20, R29 and R298: every command leaves each part of the spec's state as it was unless the tables of R20 and
R29 name the command (or, for RESET and for the INV0 flag, R243 and R33 do) as a writer of that part; ST.LASTERR is
apart (R34 has its own statement). The clause that every command, RESET among them, leaves the host's pending events
is the model's choice and no rule of the spec (DESIGN CHOICE: log 1, and log 4 for RESET); the other list of the port,
`responses`, grows by one with every command (log 2) and is not part of this frame. -/
def Obligations.OnlyWritersChangeParts : Prop :=
  ∀ (i : Instr) (s : State), ∃ t,
    exec i s = .next t ∧ t.pending = s.pending ∧ ∀ p, p ∉ writes i → p.same s t

/-- R31: ST.SZ says whether the last RS.SYN, alone or as the first stage of RS.DEC, computed every syndrome below r as
zero; no other command changes it, reset apart (R29). -/
def Obligations.SzReportsTheLastSyndromes : Prop :=
  (∀ (i : Instr) (s : State), ∃ t, exec i s = .next t ∧
    (t.st.sz = true ↔
      match i with
      | .reset => False
      | .rsSyn | .rsDec => ∀ j < s.st.psel.r, syndrome s.cw j = 0
      | _ => s.st.sz = true)) ∧
  (∀ (w : Word) (e : DecodeError) (s : State), decode w = .error e →
    ∃ t, runWord w s = .next t ∧ t.st.sz = s.st.sz)

/-- R32: ST.UNC is set when RS.BM, RS.CHIEN or RS.FORNEY, alone or inside RS.DEC, ends `RsUncorrectable`; RS.SYN, alone
or as the first stage of RS.DEC, and reset clear it; nothing else changes it. -/
def Obligations.UncFollowsTheStages : Prop :=
  (∀ (i : Instr) (s : State), ∃ t,
    exec i s = .next t ∧ t.responses = s.responses ++ [t.lastResponse] ∧
    t.st.unc =
      match i with
      | .reset | .rsSyn => false
      | .rsBm | .rsChien | .rsForney => responseCode t.lastResponse == 5 || s.st.unc
      | .rsDec => responseCode t.lastResponse == 5
      | _ => s.st.unc) ∧
  (∀ (w : Word) (e : DecodeError) (s : State), decode w = .error e →
    ∃ t, runWord w s = .next t ∧ t.st.unc = s.st.unc) ∧
  (∀ s : State, ∃ t, runEvent .hardwareReset s = .next t ∧ t.st.unc = false)

/-- R33: ST.INV0 is set by GF.INV with operand 0 and stays until STAT.CLR or reset; no other command changes it, the
decoder's inversions included. -/
def Obligations.Inv0IsSticky : Prop :=
  (∀ (i : Instr) (s : State), ∃ t, exec i s = .next t ∧
    t.st.inv0 =
      match i with
      | .reset | .statClr => false
      | .gfInv a => a == 0 || s.st.inv0
      | _ => s.st.inv0) ∧
  (∀ (w : Word) (e : DecodeError) (s : State), decode w = .error e →
    ∃ t, runWord w s = .next t ∧ t.st.inv0 = s.st.inv0) ∧
  (∀ s : State, ∃ t, runEvent .hardwareReset s = .next t ∧ t.st.inv0 = false)

/-! ### System commands -/

/-- R240, R242: NOP writes nothing; STAT.CLR clears ST.LASTERR and ST.INV0 only. Both answer 0. -/
def Obligations.NopAndStatClr : Prop :=
  ∀ s : State,
    exec .nop s = .next (s.answered 0x00000000#32) ∧
    exec .statClr s =
      .next (State.answered { s with st := { s.st with lasterr := .ok, inv0 := false } } 0x00000000#32)

/-- R29, R241: STAT.RD writes nothing and answers OK with every field of ST in its place; ST.LEN and ST.NROOT in
their widths. -/
def Obligations.StatRdLayout : Prop :=
  ∀ s : State, ∃ d : Data,
    exec .statRd s = .next (s.answered (0x0#4 ++ d)) ∧
    (d.extractLsb' 0 2).toNat =
      (match s.st.psel with
      | .p1 => 0
      | .p2 => 1
      | .p3 => 2
      | .p4 => 3) ∧
    d.getLsbD 2 = s.st.sz ∧ d.getLsbD 3 = s.st.unc ∧ d.getLsbD 4 = s.st.inv0 ∧
    (d.extractLsb' 5 4).toNat =
      (match s.st.lasterr with
      | .ok => 0
      | .illegalCommand => 1
      | .badOperand => 2
      | .outOfRange => 3
      | .invalidProfile => 4
      | .rsUncorrectable => 5) ∧
    (s.st.len ≤ 8 → (d.extractLsb' 9 4).toNat = s.st.len) ∧
    (s.st.nroot ≤ 26 → (d.extractLsb' 13 5).toNat = s.st.nroot) ∧
    d.extractLsb' 18 10 = 0

/-! ### Trit converter and packer -/

/-- R101, R102, R103, R77: each lane of TRIT.B2U is max(−1, min(1, b)) + 1 of the signed lane, each lane of TRIT.U2B is
min(2, u) − 1 of the unsigned lane, in two's complement; neither writes state. -/
def Obligations.TritConverterLanes : Prop :=
  ∀ (t : Vector (BitVec 2) 13) (s : State),
    (∃ d : Data, exec (.tritB2u t) s = .next (s.answered (0x0#4 ++ d)) ∧
      (∀ i : Fin 13, ((dataLane d i.val).toNat : Int) = max (-1) (min 1 (t[i]).toInt) + 1) ∧
      d.extractLsb' 26 2 = 0) ∧
    (∃ d : Data, exec (.tritU2b t) s = .next (s.answered (0x0#4 ++ d)) ∧
      (∀ i : Fin 13, (dataLane d i.val).toInt = min 2 ((t[i]).toNat : Int) - 1) ∧
      d.extractLsb' 26 2 = 0)

/-- R100, R108 item 4: on lanes that hold trits the two converters undo each other. -/
def Obligations.TritConvertersInvert : Prop :=
  ∀ (t : Vector (BitVec 2) 13) (s : State),
    ((∀ i : Fin 13, t[i] ≠ 0b10#2) → ∃ d e : Data,
      exec (.tritB2u t) s = .next (s.answered (0x0#4 ++ d)) ∧
      exec (.tritU2b (dataLanes d)) s = .next (s.answered (0x0#4 ++ e)) ∧ dataLanes e = t) ∧
    ((∀ i : Fin 13, t[i] ≠ 0b11#2) → ∃ d e : Data,
      exec (.tritU2b t) s = .next (s.answered (0x0#4 ++ d)) ∧
      exec (.tritB2u (dataLanes d)) s = .next (s.answered (0x0#4 ++ e)) ∧ dataLanes e = t)

/-- R104, R105: PACK243 of k in 1..5 trits, the lanes from k on zero, answers Σ tᵢ·3ⁱ; with any other operands it is
the fault BadOperand. -/
def Obligations.Pack243Result : Prop :=
  ∀ (k : BitVec 3) (t : Vector (BitVec 2) 5) (s : State),
    if (1 ≤ k.toNat ∧ k.toNat ≤ 5) ∧
        ∀ i : Fin 5, (i.val < k.toNat → (t[i]).toNat ≠ 3) ∧ (k.toNat ≤ i.val → (t[i]).toNat = 0) then
      exec (.pack243 k t) s =
        .next (s.answered (BitVec.ofNat 32
          ((t[0]).toNat + 3 * (t[1]).toNat + 9 * (t[2]).toNat + 27 * (t[3]).toNat + 81 * (t[4]).toNat)))
    else exec (.pack243 k t) s = .next (s.faulted .badOperand 0x20000000#32)

/-- R104, R106: UNPK243 of k in 1..5 and a byte below 3^k answers the k digits of the byte, digit i in lane i, and
zero in the other lanes; with any other operands it is the fault BadOperand. -/
def Obligations.Unpk243Result : Prop :=
  ∀ (k : BitVec 3) (v : BitVec 8) (s : State),
    if 1 ≤ k.toNat ∧ k.toNat ≤ 5 ∧ v.toNat < 3 ^ k.toNat then
      ∃ d : Data, exec (.unpk243 k v) s = .next (s.answered (0x0#4 ++ d)) ∧
        ∀ i < 14, (dataLane d i).toNat = if i < k.toNat then digit3 v.toNat i else 0
    else exec (.unpk243 k v) s = .next (s.faulted .badOperand 0x20000000#32)

/-- R104, R108 item 1: for every k in 1..5, unpacking what PACK243 answers gives the trits back, and packing what
UNPK243 answers gives the byte back. -/
def Obligations.PackUnpackInverse : Prop :=
  (∀ (k : BitVec 3) (t : Vector (BitVec 2) 5) (s : State), (Instr.pack243 k t).wellFormed = true →
    ∃ (b : Byte) (d : Data),
      exec (.pack243 k t) s = .next (s.answered (b.setWidth 32)) ∧ b.toNat < 3 ^ k.toNat ∧
      exec (.unpk243 k b) s = .next (s.answered (0x0#4 ++ d)) ∧ ∀ i : Fin 5, dataLane d i.val = t[i]) ∧
  (∀ (k : BitVec 3) (b : Byte) (s : State), (Instr.unpk243 k b).wellFormed = true →
    ∃ d : Data,
      exec (.unpk243 k b) s = .next (s.answered (0x0#4 ++ d)) ∧
      exec (.pack243 k (Vector.ofFn fun i => dataLane d i.val)) s = .next (s.answered (b.setWidth 32)))

/-- R107, R108: the PACK243 commands of a vector of n trits, one for each group, answer its ⌈n/5⌉ packed bytes in order;
each is at most 242, a last group of n mod 5 trits gives a byte below 3^(n mod 5), and unpacking gives the vector. -/
def Obligations.HostVectorRoundTrip : Prop :=
  ∀ (v : List Trit) (s : State),
    execAll (packCommands v) s =
      .next { s with responses := s.responses ++ (packVector v).map fun b => b.setWidth 32 } ∧
    (packVector v).length = (v.length + 4) / 5 ∧
    (∀ b ∈ packVector v, b.toNat ≤ 242) ∧
    (∀ b, (packVector v).getLast? = some b → v.length % 5 ≠ 0 → b.toNat < 3 ^ (v.length % 5)) ∧
    unpackVector (packVector v) v.length = some v

/-! ### The field -/

/-- R73, R121, R122, R130, R131: GF.ADD and GF.SUB of two symbol fields answer the digit-wise sum and difference mod 3
and write no state; a field of 27 to 31 is the fault BadOperand. -/
def Obligations.GfAddSubDigitwise : Prop :=
  ∀ (a b : BitVec 5) (s : State),
    if a.toNat ≤ 26 ∧ b.toNat ≤ 26 then
      (∃ x ≤ 26, exec (.gfAdd a b) s = .next (s.answered (BitVec.ofNat 32 x)) ∧
        ∀ i < 3, digit3 x i = (digit3 a.toNat i + digit3 b.toNat i) % 3) ∧
      (∃ x ≤ 26, exec (.gfSub a b) s = .next (s.answered (BitVec.ofNat 32 x)) ∧
        ∀ i < 3, (digit3 x i + digit3 b.toNat i) % 3 = digit3 a.toNat i)
    else
      exec (.gfAdd a b) s = .next (s.faulted .badOperand 0x20000000#32) ∧
      exec (.gfSub a b) s = .next (s.faulted .badOperand 0x20000000#32)

/-- R123: the product of the table of R136 is the closed form of R123, and is the log/exp form of R127. GF.MUL of two
symbol fields answers it and writes no state; a field of 27 to 31 is the fault BadOperand (R132). -/
def Obligations.GfMulClosedForm : Prop :=
  (∀ a b : Sym,
    let p0 := digit3 a.val 0 * digit3 b.val 0
    let p1 := digit3 a.val 0 * digit3 b.val 1 + digit3 a.val 1 * digit3 b.val 0
    let p2 := digit3 a.val 0 * digit3 b.val 2 + digit3 a.val 1 * digit3 b.val 1 + digit3 a.val 2 * digit3 b.val 0
    let p3 := digit3 a.val 1 * digit3 b.val 2 + digit3 a.val 2 * digit3 b.val 1
    let p4 := digit3 a.val 2 * digit3 b.val 2
    (gfMul a b).val = (p0 + 2 * p3) % 3 + 3 * ((p1 + p3 + 2 * p4) % 3) + 9 * ((p2 + p4) % 3) ∧
    (gfMul a b).val =
      (if a = 0 ∨ b = 0 then 0
      else expTable.getD (logTable.getD (a.val - 1) 0 + logTable.getD (b.val - 1) 0) 0)) ∧
  (∀ (a b : BitVec 5) (s : State),
    if h : a.toNat < 27 ∧ b.toNat < 27 then
      exec (.gfMul a b) s =
        .next (s.answered (BitVec.ofNat 32 (gfMul ⟨a.toNat, h.1⟩ ⟨b.toNat, h.2⟩).val))
    else exec (.gfMul a b) s = .next (s.faulted .badOperand 0x20000000#32))

/-- R128, R133: GF.INV of a non-zero symbol answers its inverse and changes nothing; of 0 it answers 0 and sets
ST.INV0; a field of 27 to 31 is the fault BadOperand. -/
def Obligations.GfInvInverts : Prop :=
  ∀ (a : BitVec 5) (s : State),
    if h : a.toNat < 27 then
      if a = 0 then
        exec (.gfInv a) s = .next (State.answered { s with st := { s.st with inv0 := true } } 0x00000000#32)
      else ∃ x : Sym,
        exec (.gfInv a) s = .next (s.answered (BitVec.ofNat 32 x.val)) ∧ gfMul ⟨a.toNat, h⟩ x = 1
    else exec (.gfInv a) s = .next (s.faulted .badOperand 0x20000000#32)

/-- R124, R128, R134: GF.POWA answers α^e for every 16-bit e, the e-fold product of α = 3, and writes no state. -/
def Obligations.GfPowaIsPower : Prop :=
  ∀ (e : BitVec 16) (s : State),
    exec (.gfPowa e) s = .next (s.answered (BitVec.ofNat 32 (gfPow 3 e.toNat).val))

/-- R129: the field laws and the facts (a) to (e), with inv(0) = 0 the one irregular point. -/
def Obligations.FieldLaws : Prop :=
  (∀ a b : Sym, gfAdd a b = gfAdd b a ∧ gfMul a b = gfMul b a) ∧
  (∀ a b c : Sym, gfAdd (gfAdd a b) c = gfAdd a (gfAdd b c) ∧ gfMul (gfMul a b) c = gfMul a (gfMul b c) ∧
    gfMul a (gfAdd b c) = gfAdd (gfMul a b) (gfMul a c)) ∧
  (∀ a : Sym, gfAdd a 0 = a ∧ gfMul a 1 = a ∧ gfAdd a (gfNeg a) = 0 ∧ (a ≠ 0 → gfMul a (gfInv a) = 1)) ∧
  (∀ a b : Sym, gfMul a b = 0 ↔ a = 0 ∨ b = 0) ∧
  (∀ a : Sym, a ≠ 0 ↔ ∃ e < 26, gfPow 3 e = a) ∧ gfPow 3 26 = 1 ∧
  (∀ a : Sym, gfAdd (gfAdd a a) a = 0) ∧
  (∀ a b : Sym, gfPow (gfAdd a b) 3 = gfAdd (gfPow a 3) (gfPow b 3)) ∧
  (∀ a b : Sym, a.val ≤ 2 → b.val ≤ 2 → (gfMul a b).val = a.val * b.val % 3) ∧
  gfInv 0 = 0 ∧ gfMul 0 (gfInv 0) = 0

/-- R124 to R127: α = 3 is the smallest element from 2 on of order 26, EXP holds its powers over three periods, LOG is
EXP's inverse, and INV is EXP at 26 − LOG. -/
def Obligations.TablesAgree : Prop :=
  (gfPow 2 2 = 1 ∧ gfPow 3 26 = 1 ∧ ∀ e < 26, 0 < e → gfPow 3 e ≠ 1) ∧
  expTable.length = 78 ∧ (∀ e < 78, expTable.getD e 27 = (gfPow 3 e).val) ∧
  logTable.length = 26 ∧
  (∀ a < 27, 0 < a → ∀ e < 26, logTable.getD (a - 1) 26 = e ↔ expTable.getD e 27 = a) ∧
  invTable.length = 27 ∧ invTable.getD 0 27 = 0 ∧
  (∀ a < 27, 0 < a → invTable.getD a 27 = expTable.getD ((26 - logTable.getD (a - 1) 26) % 26) 27) ∧
  mulTable.length = 27 ∧ (∀ row ∈ mulTable, row.length = 27 ∧ ∀ x ∈ row, x ≤ 26)

/-! ### Buffer access -/

/-- R51, R244, R246: BUF.WR at an address of a buffer, with a value the buffer can hold, replaces that element and
changes no other element, no status field and no other state. An index past the end, and the ids 6 and 7, are
OutOfRange whatever the value; then a value that is no symbol, or above 1 for LOC, is BadOperand. -/
def Obligations.BufWrWritesOneElement : Prop :=
  (∀ (b : BufId) (idx sym : BitVec 5) (s : State),
    if idx.toNat < WellFormed.bufferLength b.id then
      if sym.toNat ≤ 26 ∧ (b = .loc → sym.toNat ≤ 1) then
        ∃ t, exec (.bufWr b.id idx sym) s = .next t ∧
          (∀ (b' : BufId) (j : Nat),
            (t.memRead b' j).val = if b' = b ∧ j = idx.toNat then sym.toNat else (s.memRead b' j).val) ∧
          t.px = s.px ∧ t.st = s.st ∧ t.crc = s.crc ∧ t.pending = s.pending ∧
          t.responses = s.responses ++ [0x00000000#32]
      else exec (.bufWr b.id idx sym) s = .next (s.faulted .badOperand 0x20000000#32)
    else exec (.bufWr b.id idx sym) s = .next (s.faulted .outOfRange 0x30000000#32)) ∧
  (∀ (buf : BitVec 3) (idx sym : BitVec 5) (s : State), 6 ≤ buf.toNat →
    exec (.bufWr buf idx sym) s = .next (s.faulted .outOfRange 0x30000000#32))

/-- R51, R56, R245: BUF.RD answers the element, 0 or 1 for LOC, and changes nothing; outside the buffers it is
OutOfRange. -/
def Obligations.BufRdReadsElement : Prop :=
  (∀ (s : State) (i : Fin 26),
    exec (.bufRd 0 (BitVec.ofNat 5 i.val)) s = .next (s.answered (BitVec.ofNat 32 (s.cw[i]).val)) ∧
    exec (.bufRd 5 (BitVec.ofNat 5 i.val)) s = .next (s.answered (if s.loc[i] then 1#32 else 0#32))) ∧
  (∀ (s : State) (i : Fin 8),
    exec (.bufRd 1 (BitVec.ofNat 5 i.val)) s = .next (s.answered (BitVec.ofNat 32 (s.syn[i]).val)) ∧
    exec (.bufRd 3 (BitVec.ofNat 5 i.val)) s = .next (s.answered (BitVec.ofNat 32 (s.omg[i]).val))) ∧
  (∀ (s : State) (i : Fin 9),
    exec (.bufRd 2 (BitVec.ofNat 5 i.val)) s = .next (s.answered (BitVec.ofNat 32 (s.sig[i]).val)) ∧
    exec (.bufRd 4 (BitVec.ofNat 5 i.val)) s = .next (s.answered (BitVec.ofNat 32 (s.w[i]).val))) ∧
  (∀ (buf : BitVec 3) (idx : BitVec 5) (s : State), WellFormed.bufferLength buf ≤ idx.toNat →
    exec (.bufRd buf idx) s = .next (s.faulted .outOfRange 0x30000000#32))

/-! ### Reed-Solomon -/

/-- R30, R150, R154: RS.CFG with 0 to 3 selects the profile, with its k, r and t, and changes nothing else; any other
value is the fault InvalidProfile. -/
def Obligations.RsCfgSelects : Prop :=
  ∀ (p : BitVec 8) (s : State),
    if p.toNat ≤ 3 then
      ∃ q : Profile,
        exec (.rsCfg p) s = .next (State.answered { s with st := { s.st with psel := q } } 0x00000000#32) ∧
        q.k = 24 - 2 * p.toNat ∧ q.r = 2 + 2 * p.toNat ∧ q.t = 1 + p.toNat
    else exec (.rsCfg p) s = .next (s.faulted .invalidProfile 0x40000000#32)

/-- R152: g is monic of degree r and has no zero coefficient; of the powers α⁰ to α²⁵ it vanishes at α¹ to αʳ and
nowhere else. -/
def Obligations.GeneratorRoots : Prop :=
  ∀ p : Profile,
    (generator p).length = p.r + 1 ∧ (generator p).getD p.r 0 = 1 ∧ (∀ x ∈ generator p, x ≠ 0) ∧
    ∀ e < 26,
      gfSum (p.r + 1) (fun i => gfMul ((generator p).getD i 0) (gfPow (gfPow 3 e) i)) = 0 ↔ 1 ≤ e ∧ e ≤ p.r

/-- R151, R153, R155: RS.ENC writes CW[0..r−1] and nothing else, and the result is a multiple of g: with the message
kept at degrees r to 25 this is c = m·x^r ⊖ ((m·x^r) mod g). -/
def Obligations.RsEncIsSystematic : Prop :=
  ∀ s : State, ∃ (word : Vector Sym 26) (q : List Sym),
    exec .rsEnc s = .next (State.answered { s with cw := word } 0x00000000#32) ∧
    (∀ i : Fin 26, s.st.psel.r ≤ i.val → word[i] = s.cw[i]) ∧
    q.length = s.st.psel.k ∧
    ∀ i : Fin 26,
      word[i] = gfSum (i.val + 1) fun j => gfMul (q.getD j 0) ((generator s.st.psel).getD (i.val - j) 0)

/-- R155, R156: after RS.ENC the word is a codeword and RS.SYN answers 1; RS.ENC is idempotent, and leaves every
codeword as it is. -/
def Obligations.EncodedWordIsCodeword : Prop :=
  (∀ s : State, ∃ t u,
    exec .rsEnc s = .next t ∧ IsCodeword s.st.psel t.cw ∧
    exec .rsSyn t = .next u ∧ u.st.sz = true ∧ u.responses = t.responses ++ [0x00000001#32] ∧
    exec .rsEnc t = .next (t.answered 0x00000000#32)) ∧
  (∀ s : State, IsCodeword s.st.psel s.cw → exec .rsEnc s = .next (s.answered 0x00000000#32))

/-- R156, R171: syndromes are linear; so the ⊕ of two codewords and every multiple of a codeword are codewords, and the
syndromes RS.SYN computes of a codeword with an error added are those of the error. -/
def Obligations.SyndromesAreLinear : Prop :=
  (∀ (a b : Vector Sym 26) (x : Sym) (j : Nat),
    syndrome (wordAdd a b) j = gfAdd (syndrome a j) (syndrome b j) ∧
    syndrome (a.map (gfMul x)) j = gfMul x (syndrome a j)) ∧
  (∀ (s : State) (c e : Vector Sym 26), IsCodeword s.st.psel c → s.cw = wordAdd c e →
    ∃ t, exec .rsSyn s = .next t ∧ ∀ j < s.st.psel.r, coeff t.syn j = syndrome e j)

/-- R171, R172: RS.SYN puts c(α^(j+1)) in SYN[j] for j < r and 0 beyond, sets ST.SZ to whether all are zero, clears
ST.UNC, answers ST.SZ, and changes nothing else. -/
def Obligations.RsSynResult : Prop :=
  ∀ s : State, ∃ (syn : Vector Sym 8) (z : Bool),
    exec .rsSyn s =
      .next (State.answered { s with syn := syn, st := { s.st with sz := z, unc := false } }
        (if z then 0x00000001#32 else 0x00000000#32)) ∧
    (∀ j : Fin 8, syn[j] = if j.val < s.st.psel.r then polyEval s.cw (gfPow 3 (j.val + 1)) else 0) ∧
    (z = true ↔ ∀ j : Fin 8, j.val < s.st.psel.r → syn[j] = 0)

/-- R173, R174: RS.BM writes a locator with constant term 1 and degree at most L to SIG and its register length L ≤ r to
ST.LEN, answers L, and is `RsUncorrectable`, with ST.UNC and ST.LASTERR set, exactly when L > t; nothing else
changes. -/
def Obligations.RsBmResult : Prop :=
  ∀ s : State, ∃ (sig : Vector Sym 9) (len : Nat),
    len ≤ s.st.psel.r ∧ sig[0] = 1 ∧ (∀ i : Fin 9, len < i.val → sig[i] = 0) ∧
    if s.st.psel.t < len then
      exec .rsBm s =
        .next (State.faulted { s with sig := sig, st := { s.st with len := len, unc := true } }
          .rsUncorrectable (0x5#4 ++ BitVec.ofNat 28 len))
    else
      exec .rsBm s =
        .next (State.answered { s with sig := sig, st := { s.st with len := len } } (BitVec.ofNat 32 len))

/-- R173: the register RS.BM leaves in SIG and ST.LEN generates the syndromes below r, and no shorter register, with
any connection polynomial, does. Where L > t there may be several of that length, and this does not fix which one SIG
holds (R173's steps do, and the model runs them). -/
def Obligations.RsBmFindsShortestRegister : Prop :=
  ∀ s : State, ∃ t,
    exec .rsBm s = .next t ∧
    Annihilates s.st.psel.r s.syn (coeff t.sig) t.st.len ∧
    ∀ (c : Nat → Sym) (len : Nat), Annihilates s.st.psel.r s.syn c len → t.st.len ≤ len

/-- R175, R176: RS.CHIEN sets LOC[pos] exactly where σ(α^−pos) = 0, puts the number of those positions in ST.NROOT and
answers it, and is `RsUncorrectable`, with ST.UNC and ST.LASTERR set, exactly when that number is not ST.LEN; nothing
else changes. -/
def Obligations.RsChienFindsRoots : Prop :=
  ∀ s : State, ∃ loc : Vector Bool 26,
    (∀ pos : Fin 26, loc[pos] = true ↔ polyEval s.sig (inverseLocator pos.val) = 0) ∧
    if locCount loc = s.st.len then
      exec .rsChien s =
        .next (State.answered { s with loc := loc, st := { s.st with nroot := locCount loc } }
          (BitVec.ofNat 32 (locCount loc)))
    else
      exec .rsChien s =
        .next (State.faulted { s with loc := loc, st := { s.st with nroot := locCount loc, unc := true } }
          .rsUncorrectable (0x5#4 ++ BitVec.ofNat 28 (locCount loc)))

/-- R177 to R180: RS.FORNEY writes Ω to OMG. If some position with LOC = 1 has σ′(α^−pos) = 0 it is `RsUncorrectable`
with data 0 and CW kept; else at each such position mag = CW before ⊖ CW after satisfies mag ⊗ σ′(α^−pos) =
neg(Ω(α^−pos)), every other position is kept, and the count of LOC is answered. Nothing else changes. -/
def Obligations.RsForneyCorrects : Prop :=
  ∀ s : State, ∃ omg : Vector Sym 8,
    (∀ i : Fin 8, omg[i] =
      if i.val < s.st.psel.r then
        gfSum (i.val + 1) (fun j => gfMul (coeff s.sig j) (coeff s.syn (i.val - j)))
      else 0) ∧
    if ∃ pos : Fin 26, s.loc[pos] = true ∧ polyEval (printedDerivative s.sig) (inverseLocator pos.val) = 0 then
      exec .rsForney s =
        .next (State.faulted { s with omg := omg, st := { s.st with unc := true } } .rsUncorrectable 0x50000000#32)
    else
      ∃ cw : Vector Sym 26,
        exec .rsForney s =
          .next (State.answered { s with omg := omg, cw := cw } (BitVec.ofNat 32 (locCount s.loc))) ∧
        ∀ pos : Fin 26,
          if s.loc[pos] = true then
            gfMul (gfSub s.cw[pos] cw[pos]) (polyEval (printedDerivative s.sig) (inverseLocator pos.val)) =
              gfNeg (polyEval omg (inverseLocator pos.val))
          else cw[pos] = s.cw[pos]

/-- R181, R269: RS.DEC is the stage commands RS.SYN, RS.BM, RS.CHIEN, RS.FORNEY one after another, with one response:
OK with 0 when RS.SYN finds every syndrome zero, else that of the first stage that ends `RsUncorrectable`, else that
of RS.FORNEY; the stages after the last one it ran have no effect. -/
def Obligations.RsDecIsComposition : Prop :=
  ∀ s : State, ∃ a b c d : State,
    exec .rsSyn s = .next a ∧
    exec .rsBm { a with responses := s.responses } = .next b ∧
    exec .rsChien { b with responses := s.responses } = .next c ∧
    exec .rsForney { c with responses := s.responses } = .next d ∧
    exec .rsDec s =
      .next
        (if a.st.sz = true then { a with responses := s.responses ++ [0x00000000#32] }
        else if responseCode b.lastResponse = 5 then b
        else if responseCode c.lastResponse = 5 then c
        else d)

/-- R181, R182, R184: whatever CW holds, RS.DEC either is `RsUncorrectable` with CW unchanged, or ends OK with CW a
codeword that differs from the input in exactly as many positions as it answers, at most t. -/
def Obligations.RsDecDichotomy : Prop :=
  ∀ s : State, ∃ t, exec .rsDec s = .next t ∧
    ((∃ d : Data, t.responses = s.responses ++ [0x5#4 ++ d] ∧ t.cw = s.cw ∧ t.st.unc = true ∧
        t.st.lasterr = .rsUncorrectable) ∨
      (t.responses = s.responses ++ [BitVec.ofNat 32 (differences s.cw t.cw)] ∧
        differences s.cw t.cw ≤ s.st.psel.t ∧ IsCodeword s.st.psel t.cw ∧ t.st.unc = false ∧
        t.st.lasterr = s.st.lasterr))

/-- R183: with CW a codeword of the selected profile plus an error of weight at most t, RS.DEC ends OK with CW the
codeword and answers the weight; LOC is then the support of the error, unless the error is zero, when R181's
short-circuit leaves LOC as it was (log 16). -/
def Obligations.RsDecCorrectsUpToT : Prop :=
  ∀ (s : State) (c e : Vector Sym 26),
    IsCodeword s.st.psel c → weight e ≤ s.st.psel.t → s.cw = wordAdd c e →
    ∃ t, exec .rsDec s = .next t ∧ t.cw = c ∧
      t.responses = s.responses ++ [BitVec.ofNat 32 (weight e)] ∧
      (weight e ≠ 0 → ∀ pos : Fin 26, t.loc[pos] = true ↔ e[pos] ≠ 0) ∧
      (weight e = 0 → t.loc = s.loc)

/-! ### CRC -/

/-- R221: the step of the CRC register, through CRC.TRIT: the feedback is (in + reg[11]) mod 3; positions 3, 4 and 7
take the neighbour below plus the feedback, position 0 the feedback, the others the neighbour below. A lane of 3 is
the fault BadOperand (R224). -/
def Obligations.CrcTritSteps : Prop :=
  ∀ (t : BitVec 2) (s : State),
    if t.toNat ≤ 2 then
      ∃ reg : Vector Trit 12,
        exec (.crcTrit t) s = .next (State.answered { s with crc := reg } 0x00000000#32) ∧
        ∀ i : Fin 12,
          (reg[i]).val =
            if i.val = 0 then (t.toNat + (s.crc[11]).val) % 3
            else if i.val = 3 ∨ i.val = 4 ∨ i.val = 7 then
              ((s.crc.toList.getD (i.val - 1) 0).val + (t.toNat + (s.crc[11]).val) % 3) % 3
            else (s.crc.toList.getD (i.val - 1) 0).val
    else exec (.crcTrit t) s = .next (s.faulted .badOperand 0x20000000#32)

/-- R225, R226: CRC.SYM is CRC.TRIT of the symbol's three digits, digit 0 first, and CRC.FIN is twelve CRC.TRIT 0, each
with one response of 0 and no other change; CRC.SYM of 27 to 31 is the fault BadOperand. -/
def Obligations.CrcSymAndFinAreTrits : Prop :=
  (∀ (a : BitVec 5) (s : State),
    if a.toNat ≤ 26 then
      ∃ t, execAll ((List.range 3).map fun i => .crcTrit (BitVec.ofNat 2 (digit3 a.toNat i))) s = .next t ∧
        exec (.crcSym a) s = .next (State.answered { s with crc := t.crc } 0x00000000#32)
    else exec (.crcSym a) s = .next (s.faulted .badOperand 0x20000000#32)) ∧
  (∀ s : State, ∃ t,
    execAll (List.replicate 12 (.crcTrit 0)) s = .next t ∧
    exec .crcFin s = .next (State.answered { s with crc := t.crc } 0x00000000#32))

/-- R223, R227: CRC.INIT clears the twelve trits and changes nothing else; CRC.RD changes nothing and answers CRC[i] in
lane i. -/
def Obligations.CrcInitAndRead : Prop :=
  ∀ s : State,
    exec .crcInit s = .next (State.answered { s with crc := #v[0, 0, 0, 0, 0, 0, 0, 0, 0, 0, 0, 0] } 0x00000000#32) ∧
    ∃ d : Data, exec .crcRd s = .next (s.answered (0x0#4 ++ d)) ∧
      (∀ i : Fin 12, (dataLane d i.val).toNat = (s.crc[i]).val) ∧ d.extractLsb' 24 4 = 0

/-- R222, R230 (a): the CRC of the trit-wise sum of two messages of equal length is the trit-wise sum of their CRCs, and
the CRC of the zero message is zero, whatever the register held. -/
def Obligations.CrcIsLinear : Prop :=
  (∀ (m n : List Trit) (s : State), m.length = n.length → ∃ t u v,
    execAll (crcCommands m) s = .next t ∧ execAll (crcCommands n) s = .next u ∧
    execAll (crcCommands (List.zipWith (· + ·) m n)) s = .next v ∧
    ∀ i : Fin 12, v.crc[i] = t.crc[i] + u.crc[i]) ∧
  (∀ (k : Nat) (s : State), ∃ t,
    execAll (crcCommands (List.replicate k 0)) s = .next t ∧ ∀ i : Fin 12, t.crc[i] = 0)

/-- R230 (b): changing any single trit of a message changes its CRC. -/
def Obligations.CrcDetectsSingleTrit : Prop :=
  ∀ (before after : List Trit) (x y : Trit) (s : State), x ≠ y → ∃ t u,
    execAll (crcCommands (before ++ x :: after)) s = .next t ∧
    execAll (crcCommands (before ++ y :: after)) s = .next u ∧ t.crc ≠ u.crc

/-! ### Pixels -/

/-- R74, R200, R204, R205: PIX.LD stores each signed field clamped to its range in the named register, answers 1 if a
component was clamped and 0 if not, and changes nothing else; PIX.RD answers the register's components in their
places and changes nothing. -/
def Obligations.PixLdAndRd : Prop :=
  (∀ (n : Fin 2) (y : BitVec 9) (cb cr : BitVec 8) (s : State), ∃ p : Pixel,
    exec (.pixLd (BitVec.ofNat 1 n.val) y cb cr) s =
      .next (State.answered { s with px := s.px.set n.val p }
        (if y.toInt = p.y ∧ cb.toInt = p.cb ∧ cr.toInt = p.cr then 0x00000000#32 else 0x00000001#32)) ∧
    p.y = max 0 (min 242 y.toInt) ∧ p.cb = max (-40) (min 40 cb.toInt) ∧ p.cr = max (-40) (min 40 cr.toInt)) ∧
  (∀ (n : Fin 2) (s : State), (s.px[n]).InRange → ∃ d : Data,
    exec (.pixRd (BitVec.ofNat 1 n.val)) s = .next (s.answered (0x0#4 ++ d)) ∧
    d.extractLsb' 25 3 = 0 ∧ ((d.extractLsb' 16 9).toNat : Int) = (s.px[n]).y ∧
    (d.extractLsb' 8 8).toInt = (s.px[n]).cb ∧ (d.extractLsb' 0 8).toInt = (s.px[n]).cr)

/-- R201, R202, R206, R207: the 27 trits PIX.PACK2 and PIX.PACK1 put in W for pixels in range, Y and the chroma plus 40
written weight-1 trit first; only W changes. -/
def Obligations.PixPackLayouts : Prop :=
  ∀ (s : State) (p q : Pixel), s.px = #v[p, q] → p.InRange → q.InRange →
    (∃ w : Vector Sym 9,
      exec .pixPack2 s = .next (State.answered { s with w := w } 0x00000000#32) ∧
      ∀ i < 27, State.trit { s with w := w } i =
        if i < 5 then digit3 p.y.toNat i
        else if i < 9 then digit3 (p.cb + 40).toNat (i - 5)
        else if i < 13 then digit3 (p.cr + 40).toNat (i - 9)
        else if i < 18 then digit3 q.y.toNat (i - 13)
        else if i < 22 then digit3 (q.cb + 40).toNat (i - 18)
        else if i < 26 then digit3 (q.cr + 40).toNat (i - 22)
        else 0) ∧
    (∃ w : Vector Sym 9,
      exec .pixPack1 s = .next (State.answered { s with w := w } 0x00000000#32) ∧
      ∀ i < 27, State.trit { s with w := w } i =
        if i < 13 then digit3 (p.y + 243 * (p.cb + 40) + 19683 * (p.cr + 40)).toNat i else 0)

/-- R208, R209: PIX.UNPK2 and PIX.UNPK1 compute the pixels from the trits of W, always in range, and write nothing
else; PIX.UNPK1 leaves PX[1]. -/
def Obligations.PixUnpackValues : Prop :=
  ∀ s : State,
    let val5 (off : Nat) : Int :=
      s.trit off + 3 * s.trit (off + 1) + 9 * s.trit (off + 2) + 27 * s.trit (off + 3) + 81 * s.trit (off + 4)
    let val4 (off : Nat) : Int :=
      s.trit off + 3 * s.trit (off + 1) + 9 * s.trit (off + 2) + 27 * s.trit (off + 3)
    let p : Pixel := ⟨val5 0, val4 5 - 40, val4 9 - 40⟩
    let q : Pixel := ⟨val5 13, val4 18 - 40, val4 22 - 40⟩
    p.InRange ∧ q.InRange ∧
    exec .pixUnpk2 s = .next (State.answered { s with px := #v[p, q] } 0x00000000#32) ∧
    exec .pixUnpk1 s = .next (State.answered { s with px := #v[p, s.px[1]] } 0x00000000#32)

/-- R210: packing then unpacking leaves pixels in range as they were, and unpacking then packing leaves a word with a
zero pad as it was, for both policies; packing always leaves the pad zero. -/
def Obligations.PixelPackingReverses : Prop :=
  (∀ (s : State) (p q : Pixel), s.px = #v[p, q] → p.InRange → q.InRange →
    (∃ t u, exec .pixPack2 s = .next t ∧ t.trit 26 = 0 ∧ exec .pixUnpk2 t = .next u ∧ u.px = s.px) ∧
    (∃ t u, exec .pixPack1 s = .next t ∧ (∀ i < 27, 13 ≤ i → t.trit i = 0) ∧
      exec .pixUnpk1 t = .next u ∧ u.px = s.px)) ∧
  (∀ s : State, s.trit 26 = 0 →
    ∃ t u, exec .pixUnpk2 s = .next t ∧ exec .pixPack2 t = .next u ∧ u.w = s.w) ∧
  (∀ s : State, (∀ i < 27, 13 ≤ i → s.trit i = 0) →
    ∃ t u, exec .pixUnpk1 s = .next t ∧ exec .pixPack1 t = .next u ∧ u.w = s.w)

/-- R211: the four trits of a chroma component are its balanced trits each increased by one, −40..40 is exactly the range
of four balanced trits, and Y is plain base 3. Stated of the words PIX.PACK2 writes. -/
def Obligations.ChromaTritsAreBalanced : Prop :=
  (∀ c : Int, (-40 ≤ c ∧ c ≤ 40) ↔
    ∃ b : Fin 4 → Int, (∀ i, -1 ≤ b i ∧ b i ≤ 1) ∧ c = b 0 + 3 * b 1 + 9 * b 2 + 27 * b 3) ∧
  (∀ (s : State) (p q : Pixel) (b : Fin 4 → Int), s.px = #v[p, q] → p.InRange → q.InRange →
    (∀ i, -1 ≤ b i ∧ b i ≤ 1) →
    ∃ t, exec .pixPack2 s = .next t ∧
      (p.cb = b 0 + 3 * b 1 + 9 * b 2 + 27 * b 3 → ∀ i : Fin 4, (t.trit (5 + i.val) : Int) = b i + 1) ∧
      (p.cr = b 0 + 3 * b 1 + 9 * b 2 + 27 * b 3 → ∀ i : Fin 4, (t.trit (9 + i.val) : Int) = b i + 1) ∧
      (q.cb = b 0 + 3 * b 1 + 9 * b 2 + 27 * b 3 → ∀ i : Fin 4, (t.trit (18 + i.val) : Int) = b i + 1) ∧
      (q.cr = b 0 + 3 * b 1 + 9 * b 2 + 27 * b 3 → ∀ i : Fin 4, (t.trit (22 + i.val) : Int) = b i + 1) ∧
      p.y = t.trit 0 + 3 * t.trit 1 + 9 * t.trit 2 + 27 * t.trit 3 + 81 * t.trit 4 ∧
      q.y = t.trit 13 + 3 * t.trit 14 + 9 * t.trit 15 + 27 * t.trit 16 + 81 * t.trit 17)
end

