-- ==== Sys2Proof/Laws/State.lean ====
section
/-! SUPPORT. The small lemmas of State: for every named update of the state, what each field holds afterwards, so that
no proof unfolds a record update. -/

namespace Sys2Proof.Machine


/-! ### respond and raise -/

@[simp] theorem respond_px (s : State) (c : ResultCode) (d : Data) : (s.respond c d).px = s.px := rfl
@[simp] theorem respond_cw (s : State) (c : ResultCode) (d : Data) : (s.respond c d).cw = s.cw := rfl
@[simp] theorem respond_syn (s : State) (c : ResultCode) (d : Data) : (s.respond c d).syn = s.syn := rfl
@[simp] theorem respond_sig (s : State) (c : ResultCode) (d : Data) : (s.respond c d).sig = s.sig := rfl
@[simp] theorem respond_omg (s : State) (c : ResultCode) (d : Data) : (s.respond c d).omg = s.omg := rfl
@[simp] theorem respond_w (s : State) (c : ResultCode) (d : Data) : (s.respond c d).w = s.w := rfl
@[simp] theorem respond_loc (s : State) (c : ResultCode) (d : Data) : (s.respond c d).loc = s.loc := rfl
@[simp] theorem respond_crc (s : State) (c : ResultCode) (d : Data) : (s.respond c d).crc = s.crc := rfl
@[simp] theorem respond_pending (s : State) (c : ResultCode) (d : Data) :
    (s.respond c d).pending = s.pending := rfl
@[simp] theorem respond_responses (s : State) (c : ResultCode) (d : Data) :
    (s.respond c d).responses = s.responses ++ [responseWord c d] := rfl
@[simp] theorem respond_st_psel (s : State) (c : ResultCode) (d : Data) :
    (s.respond c d).st.psel = s.st.psel := rfl
@[simp] theorem respond_st_sz (s : State) (c : ResultCode) (d : Data) : (s.respond c d).st.sz = s.st.sz := rfl
@[simp] theorem respond_st_unc (s : State) (c : ResultCode) (d : Data) :
    (s.respond c d).st.unc = s.st.unc := rfl
@[simp] theorem respond_st_inv0 (s : State) (c : ResultCode) (d : Data) :
    (s.respond c d).st.inv0 = s.st.inv0 := rfl
@[simp] theorem respond_st_lasterr (s : State) (c : ResultCode) (d : Data) :
    (s.respond c d).st.lasterr = lasterrAfter c s.st.lasterr := rfl
@[simp] theorem respond_st_len (s : State) (c : ResultCode) (d : Data) :
    (s.respond c d).st.len = s.st.len := rfl
@[simp] theorem respond_st_nroot (s : State) (c : ResultCode) (d : Data) :
    (s.respond c d).st.nroot = s.st.nroot := rfl

@[simp] theorem lasterrAfter_ok (old : ResultCode) : lasterrAfter .ok old = old := rfl

theorem lasterrAfter_of_ne_ok {c : ResultCode} (h : c ≠ .ok) (old : ResultCode) : lasterrAfter c old = c := by
  simp [lasterrAfter, h]

/-- An OK response changes the responses and nothing else. -/
theorem respond_ok (s : State) (d : Data) :
    s.respond .ok d = { s with responses := s.responses ++ [responseWord .ok d] } := rfl

/-- Raising a fault, said once: ST.LASTERR, the response, and nothing else (R262). -/
theorem raise_eq (s : State) (f : ResultCode) (h : f ≠ .ok) :
    s.raise f =
      { s with st := { s.st with lasterr := f }, responses := s.responses ++ [responseWord f 0] } := by
  simp [State.raise, State.respond, lasterrAfter, h]


/-! ### acknowledge -/

@[simp] theorem acknowledge_px (s : State) : s.acknowledge.px = s.px := rfl
@[simp] theorem acknowledge_cw (s : State) : s.acknowledge.cw = s.cw := rfl
@[simp] theorem acknowledge_syn (s : State) : s.acknowledge.syn = s.syn := rfl
@[simp] theorem acknowledge_sig (s : State) : s.acknowledge.sig = s.sig := rfl
@[simp] theorem acknowledge_omg (s : State) : s.acknowledge.omg = s.omg := rfl
@[simp] theorem acknowledge_w (s : State) : s.acknowledge.w = s.w := rfl
@[simp] theorem acknowledge_loc (s : State) : s.acknowledge.loc = s.loc := rfl
@[simp] theorem acknowledge_crc (s : State) : s.acknowledge.crc = s.crc := rfl
@[simp] theorem acknowledge_pending (s : State) : s.acknowledge.pending = s.pending := rfl
@[simp] theorem acknowledge_responses (s : State) : s.acknowledge.responses = s.responses := rfl
@[simp] theorem acknowledge_st_psel (s : State) : s.acknowledge.st.psel = s.st.psel := rfl
@[simp] theorem acknowledge_st_sz (s : State) : s.acknowledge.st.sz = s.st.sz := rfl
@[simp] theorem acknowledge_st_unc (s : State) : s.acknowledge.st.unc = s.st.unc := rfl
@[simp] theorem acknowledge_st_inv0 (s : State) : s.acknowledge.st.inv0 = false := rfl
@[simp] theorem acknowledge_st_lasterr (s : State) : s.acknowledge.st.lasterr = .ok := rfl
@[simp] theorem acknowledge_st_len (s : State) : s.acknowledge.st.len = s.st.len := rfl
@[simp] theorem acknowledge_st_nroot (s : State) : s.acknowledge.st.nroot = s.st.nroot := rfl

/-! ### toReset -/

@[simp] theorem toReset_px (s : State) : s.toReset.px = State.reset.px := rfl
@[simp] theorem toReset_cw (s : State) : s.toReset.cw = State.reset.cw := rfl
@[simp] theorem toReset_syn (s : State) : s.toReset.syn = State.reset.syn := rfl
@[simp] theorem toReset_sig (s : State) : s.toReset.sig = State.reset.sig := rfl
@[simp] theorem toReset_omg (s : State) : s.toReset.omg = State.reset.omg := rfl
@[simp] theorem toReset_w (s : State) : s.toReset.w = State.reset.w := rfl
@[simp] theorem toReset_loc (s : State) : s.toReset.loc = State.reset.loc := rfl
@[simp] theorem toReset_crc (s : State) : s.toReset.crc = State.reset.crc := rfl
@[simp] theorem toReset_pending (s : State) : s.toReset.pending = s.pending := rfl
@[simp] theorem toReset_responses (s : State) : s.toReset.responses = s.responses := rfl
@[simp] theorem toReset_st (s : State) : s.toReset.st = Status.reset := rfl

/-! ### writePx -/

@[simp] theorem writePx_px (s : State) (n : Fin 2) (p : Pixel) : (s.writePx n p).px = s.px.set n p := rfl
@[simp] theorem writePx_cw (s : State) (n : Fin 2) (p : Pixel) : (s.writePx n p).cw = s.cw := rfl
@[simp] theorem writePx_syn (s : State) (n : Fin 2) (p : Pixel) : (s.writePx n p).syn = s.syn := rfl
@[simp] theorem writePx_sig (s : State) (n : Fin 2) (p : Pixel) : (s.writePx n p).sig = s.sig := rfl
@[simp] theorem writePx_omg (s : State) (n : Fin 2) (p : Pixel) : (s.writePx n p).omg = s.omg := rfl
@[simp] theorem writePx_w (s : State) (n : Fin 2) (p : Pixel) : (s.writePx n p).w = s.w := rfl
@[simp] theorem writePx_loc (s : State) (n : Fin 2) (p : Pixel) : (s.writePx n p).loc = s.loc := rfl
@[simp] theorem writePx_crc (s : State) (n : Fin 2) (p : Pixel) : (s.writePx n p).crc = s.crc := rfl
@[simp] theorem writePx_pending (s : State) (n : Fin 2) (p : Pixel) :
    (s.writePx n p).pending = s.pending := rfl
@[simp] theorem writePx_responses (s : State) (n : Fin 2) (p : Pixel) :
    (s.writePx n p).responses = s.responses := rfl
@[simp] theorem writePx_st (s : State) (n : Fin 2) (p : Pixel) : (s.writePx n p).st = s.st := rfl

/-! ### memWrite: a buffer write touches the buffers only -/

@[simp] theorem memWrite_px (s : State) (b : BufId) (i : Nat) (v : Sym) :
    (s.memWrite b i v).px = s.px := by cases b <;> rfl
@[simp] theorem memWrite_st (s : State) (b : BufId) (i : Nat) (v : Sym) :
    (s.memWrite b i v).st = s.st := by cases b <;> rfl
@[simp] theorem memWrite_crc (s : State) (b : BufId) (i : Nat) (v : Sym) :
    (s.memWrite b i v).crc = s.crc := by cases b <;> rfl
@[simp] theorem memWrite_pending (s : State) (b : BufId) (i : Nat) (v : Sym) :
    (s.memWrite b i v).pending = s.pending := by cases b <;> rfl
@[simp] theorem memWrite_responses (s : State) (b : BufId) (i : Nat) (v : Sym) :
    (s.memWrite b i v).responses = s.responses := by cases b <;> rfl

/-! ### the decoder stages -/

@[simp] theorem synStage_px (s : State) : (synStage s).px = s.px := rfl
@[simp] theorem synStage_cw (s : State) : (synStage s).cw = s.cw := rfl
@[simp] theorem synStage_syn (s : State) : (synStage s).syn = syndromes s.st.psel.r s.cw := rfl
@[simp] theorem synStage_sig (s : State) : (synStage s).sig = s.sig := rfl
@[simp] theorem synStage_omg (s : State) : (synStage s).omg = s.omg := rfl
@[simp] theorem synStage_w (s : State) : (synStage s).w = s.w := rfl
@[simp] theorem synStage_loc (s : State) : (synStage s).loc = s.loc := rfl
@[simp] theorem synStage_crc (s : State) : (synStage s).crc = s.crc := rfl
@[simp] theorem synStage_pending (s : State) : (synStage s).pending = s.pending := rfl
@[simp] theorem synStage_responses (s : State) : (synStage s).responses = s.responses := rfl
@[simp] theorem synStage_st_psel (s : State) : (synStage s).st.psel = s.st.psel := rfl
@[simp] theorem synStage_st_sz (s : State) :
    (synStage s).st.sz = syndromesZero s.st.psel.r (syndromes s.st.psel.r s.cw) := rfl
@[simp] theorem synStage_st_unc (s : State) : (synStage s).st.unc = false := rfl
@[simp] theorem synStage_st_inv0 (s : State) : (synStage s).st.inv0 = s.st.inv0 := rfl
@[simp] theorem synStage_st_lasterr (s : State) : (synStage s).st.lasterr = s.st.lasterr := rfl
@[simp] theorem synStage_st_len (s : State) : (synStage s).st.len = s.st.len := rfl
@[simp] theorem synStage_st_nroot (s : State) : (synStage s).st.nroot = s.st.nroot := rfl
@[simp] theorem bmStage_px (s : State) : (bmStage s).state.px = s.px := rfl
@[simp] theorem bmStage_cw (s : State) : (bmStage s).state.cw = s.cw := rfl
@[simp] theorem bmStage_syn (s : State) : (bmStage s).state.syn = s.syn := rfl
@[simp] theorem bmStage_sig (s : State) : (bmStage s).state.sig = (berlekampMassey s.st.psel.r s.syn).c := rfl
@[simp] theorem bmStage_omg (s : State) : (bmStage s).state.omg = s.omg := rfl
@[simp] theorem bmStage_w (s : State) : (bmStage s).state.w = s.w := rfl
@[simp] theorem bmStage_loc (s : State) : (bmStage s).state.loc = s.loc := rfl
@[simp] theorem bmStage_crc (s : State) : (bmStage s).state.crc = s.crc := rfl
@[simp] theorem bmStage_pending (s : State) : (bmStage s).state.pending = s.pending := rfl
@[simp] theorem bmStage_responses (s : State) : (bmStage s).state.responses = s.responses := rfl
@[simp] theorem bmStage_st_psel (s : State) : (bmStage s).state.st.psel = s.st.psel := rfl
@[simp] theorem bmStage_st_sz (s : State) : (bmStage s).state.st.sz = s.st.sz := rfl
@[simp] theorem bmStage_st_unc (s : State) :
    (bmStage s).state.st.unc = ((bmStage s).uncorrectable || s.st.unc) := rfl
@[simp] theorem bmStage_st_inv0 (s : State) : (bmStage s).state.st.inv0 = s.st.inv0 := rfl
@[simp] theorem bmStage_st_lasterr (s : State) : (bmStage s).state.st.lasterr = s.st.lasterr := rfl
@[simp] theorem bmStage_st_len (s : State) :
    (bmStage s).state.st.len = (berlekampMassey s.st.psel.r s.syn).len := rfl
@[simp] theorem bmStage_st_nroot (s : State) : (bmStage s).state.st.nroot = s.st.nroot := rfl
@[simp] theorem chienStage_px (s : State) : (chienStage s).state.px = s.px := by unfold chienStage; rfl
@[simp] theorem chienStage_cw (s : State) : (chienStage s).state.cw = s.cw := by unfold chienStage; rfl
@[simp] theorem chienStage_syn (s : State) : (chienStage s).state.syn = s.syn := by unfold chienStage; rfl
@[simp] theorem chienStage_sig (s : State) : (chienStage s).state.sig = s.sig := by unfold chienStage; rfl
@[simp] theorem chienStage_omg (s : State) : (chienStage s).state.omg = s.omg := by unfold chienStage; rfl
@[simp] theorem chienStage_w (s : State) : (chienStage s).state.w = s.w := by unfold chienStage; rfl
@[simp] theorem chienStage_loc (s : State) :
    (chienStage s).state.loc = chienSearch s.sig := by unfold chienStage; rfl
@[simp] theorem chienStage_crc (s : State) : (chienStage s).state.crc = s.crc := by unfold chienStage; rfl
@[simp] theorem chienStage_pending (s : State) :
    (chienStage s).state.pending = s.pending := by unfold chienStage; rfl
@[simp] theorem chienStage_responses (s : State) :
    (chienStage s).state.responses = s.responses := by unfold chienStage; rfl
@[simp] theorem chienStage_st_psel (s : State) :
    (chienStage s).state.st.psel = s.st.psel := by simp only [chienStage, Status.withOutcome]
@[simp] theorem chienStage_st_sz (s : State) :
    (chienStage s).state.st.sz = s.st.sz := by simp only [chienStage, Status.withOutcome]
@[simp] theorem chienStage_st_unc (s : State) :
    (chienStage s).state.st.unc = ((chienStage s).uncorrectable || s.st.unc) := by simp only [chienStage, Status.withOutcome]
@[simp] theorem chienStage_st_inv0 (s : State) :
    (chienStage s).state.st.inv0 = s.st.inv0 := by simp only [chienStage, Status.withOutcome]
@[simp] theorem chienStage_st_lasterr (s : State) :
    (chienStage s).state.st.lasterr = s.st.lasterr := by simp only [chienStage, Status.withOutcome]
@[simp] theorem chienStage_st_len (s : State) :
    (chienStage s).state.st.len = s.st.len := by simp only [chienStage, Status.withOutcome]
@[simp] theorem chienStage_st_nroot (s : State) :
    (chienStage s).state.st.nroot = rootCount (chienSearch s.sig) := by simp only [chienStage, Status.withOutcome]
@[simp] theorem forneyStage_px (s : State) : (forneyStage s).state.px = s.px := rfl
@[simp] theorem forneyStage_cw (s : State) :
    (forneyStage s).state.cw = if forneyFails s.sig s.loc then s.cw
      else corrected s.cw (evaluator s.st.psel.r s.sig s.syn) s.sig s.loc := rfl
@[simp] theorem forneyStage_syn (s : State) : (forneyStage s).state.syn = s.syn := rfl
@[simp] theorem forneyStage_sig (s : State) : (forneyStage s).state.sig = s.sig := rfl
@[simp] theorem forneyStage_omg (s : State) :
    (forneyStage s).state.omg = evaluator s.st.psel.r s.sig s.syn := rfl
@[simp] theorem forneyStage_w (s : State) : (forneyStage s).state.w = s.w := rfl
@[simp] theorem forneyStage_loc (s : State) : (forneyStage s).state.loc = s.loc := rfl
@[simp] theorem forneyStage_crc (s : State) : (forneyStage s).state.crc = s.crc := rfl
@[simp] theorem forneyStage_pending (s : State) : (forneyStage s).state.pending = s.pending := rfl
@[simp] theorem forneyStage_responses (s : State) : (forneyStage s).state.responses = s.responses := rfl
@[simp] theorem forneyStage_st_psel (s : State) : (forneyStage s).state.st.psel = s.st.psel := rfl
@[simp] theorem forneyStage_st_sz (s : State) : (forneyStage s).state.st.sz = s.st.sz := rfl
@[simp] theorem forneyStage_st_unc (s : State) :
    (forneyStage s).state.st.unc = ((forneyStage s).uncorrectable || s.st.unc) := rfl
@[simp] theorem forneyStage_st_inv0 (s : State) : (forneyStage s).state.st.inv0 = s.st.inv0 := rfl
@[simp] theorem forneyStage_st_lasterr (s : State) : (forneyStage s).state.st.lasterr = s.st.lasterr := rfl
@[simp] theorem forneyStage_st_len (s : State) : (forneyStage s).state.st.len = s.st.len := rfl
@[simp] theorem forneyStage_st_nroot (s : State) : (forneyStage s).state.st.nroot = s.st.nroot := rfl

end Sys2Proof.Machine
end

