-- ==== Sys2Proof/Laws/Answers.lean ====
section
/-! SUPPORT. The forms in which statements write a response (`State.answered`, `State.faulted`, literal words) against the
forms in which the meanings write it (`State.respond`, `State.raise`). -/

namespace Sys2Proof.Machine

theorem respond_ok_eq_answered (s : State) (d : Data) : s.respond .ok d = s.answered (0x0#4 ++ d) := rfl

theorem respond_eq_faulted (s : State) {c : ResultCode} (h : c ≠ .ok) (d : Data) :
    s.respond c d = s.faulted c (c.code ++ d) := by
  simp [State.respond, State.faulted, lasterrAfter, h, responseWord]

theorem raise_eq_faulted (s : State) {c : ResultCode} (h : c ≠ .ok) : s.raise c = s.faulted c (c.code ++ 0#28) :=
  respond_eq_faulted s h 0

/-- Data below 2^28 after an OK code is the number itself. -/
theorem ok_append_ofNat {n : Nat} (h : n < 2 ^ 28) : 0x0#4 ++ BitVec.ofNat 28 n = BitVec.ofNat 32 n := by
  apply BitVec.eq_of_toNat_eq
  simp only [BitVec.toNat_append, BitVec.toNat_ofNat, Nat.zero_mod, Nat.zero_shiftLeft, Nat.zero_or]
  omega

theorem ok_append_symData (a : Sym) : 0x0#4 ++ symData a = BitVec.ofNat 32 a.val := ok_append_ofNat (by omega)

/-- A whole word passes through the opcode table's numbering. -/
theorem tableWord_toNat (w : Word) : tableWord 32 w.toNat = w := by
  apply BitVec.eq_of_toNat_eq
  have h := w.isLt
  rw [tableWord, BitVec.toNat_ofNat, Nat.mod_mod, Nat.mod_eq_of_lt h]

@[simp] theorem answered_st (s : State) (w : Word) : (s.answered w).st = s.st := rfl
@[simp] theorem answered_cw (s : State) (w : Word) : (s.answered w).cw = s.cw := rfl
@[simp] theorem answered_w (s : State) (w : Word) : (s.answered w).w = s.w := rfl
@[simp] theorem answered_px (s : State) (w : Word) : (s.answered w).px = s.px := rfl
@[simp] theorem answered_crc (s : State) (w : Word) : (s.answered w).crc = s.crc := rfl
@[simp] theorem answered_loc (s : State) (w : Word) : (s.answered w).loc = s.loc := rfl
@[simp] theorem answered_pending (s : State) (w : Word) : (s.answered w).pending = s.pending := rfl
@[simp] theorem answered_responses (s : State) (w : Word) : (s.answered w).responses = s.responses ++ [w] := rfl
@[simp] theorem faulted_responses (s : State) (f : ResultCode) (w : Word) :
    (s.faulted f w).responses = s.responses ++ [w] := rfl
@[simp] theorem faulted_pending (s : State) (f : ResultCode) (w : Word) : (s.faulted f w).pending = s.pending := rfl
@[simp] theorem faulted_lasterr (s : State) (f : ResultCode) (w : Word) : (s.faulted f w).st.lasterr = f := rfl

end Sys2Proof.Machine
end

