-- ==== Sys2Proof/Laws/Ops.lean ====
section
/-! SUPPORT. One lemma for each shared operation, saying once everything it can do: operand forms, buffer access,
digits and coefficients, the decoder's stages, the CRC step, and how a command word is run. -/

namespace Sys2Proof.Machine

/-! ### Operand forms -/

theorem symOperand_eq_some {f : BitVec 5} {v : Sym} : symOperand f = some v ↔ f.toNat = v.val := by
  unfold symOperand
  split
  · simp [Fin.ext_iff]
  · simp only [reduceCtorEq, false_iff]
    omega

theorem symOperand_eq_none {f : BitVec 5} : symOperand f = none ↔ 27 ≤ f.toNat := by
  unfold symOperand
  split <;> simp <;> omega

theorem tritOperand_eq_some {f : BitVec 2} {v : Trit} : tritOperand f = some v ↔ f.toNat = v.val := by
  unfold tritOperand
  split
  · simp [Fin.ext_iff]
  · simp only [reduceCtorEq, false_iff]
    omega

theorem tritOperand_eq_none {f : BitVec 2} : tritOperand f = none ↔ 3 ≤ f.toNat := by
  unfold tritOperand
  split <;> simp <;> omega

theorem countOperand_eq_some {k : BitVec 3} {n : Nat} :
    countOperand k = some n ↔ 1 ≤ k.toNat ∧ k.toNat ≤ 5 ∧ n = k.toNat := by
  unfold countOperand Config.groupTrits
  split <;> simp <;> omega

theorem countOperand_eq_none {k : BitVec 3} : countOperand k = none ↔ k.toNat < 1 ∨ 5 < k.toNat := by
  unfold countOperand Config.groupTrits
  split <;> simp <;> omega

theorem addressOperand_eq_some {buf : BitVec 3} {idx : BitVec 5} {b : BufId} {i : Nat} :
    addressOperand buf idx = some (b, i) ↔ bufOperand buf = some b ∧ idx.toNat < b.length ∧ i = idx.toNat := by
  unfold addressOperand
  cases bufOperand buf with
  | none => simp
  | some b' =>
    simp only [Option.some.injEq]
    split
    · simp only [reduceCtorEq, false_iff]
      rintro ⟨rfl, h, -⟩
      omega
    · simp only [Option.some.injEq, Prod.mk.injEq]
      constructor
      · rintro ⟨rfl, rfl⟩
        exact ⟨rfl, by omega, rfl⟩
      · rintro ⟨rfl, -, rfl⟩
        exact ⟨rfl, rfl⟩

theorem elementOperand_eq_some {b : BufId} {f : BitVec 5} {v : Sym} :
    elementOperand b f = some v ↔ f.toNat = v.val ∧ (b = .loc → v.val ≤ 1) := by
  unfold elementOperand
  cases h : symOperand f with
  | none =>
    have := symOperand_eq_none.mp h
    simp only [reduceCtorEq, false_iff]
    omega
  | some w =>
    have hw := symOperand_eq_some.mp h
    simp only
    split
    · next hl =>
      simp only [reduceCtorEq, false_iff]
      rintro ⟨hv, hb⟩
      have := hb hl.1
      omega
    · next hl =>
      simp only [Option.some.injEq]
      constructor
      · rintro rfl
        exact ⟨hw, fun hb => by by_contra hc; exact hl ⟨hb, by omega⟩⟩
      · rintro ⟨hv, -⟩
        exact Fin.ext (by omega)

theorem profileOperand_eq_some {p : BitVec 8} {q : Profile} :
    profileOperand p = some q ↔ p.toNat = q.code.toNat := by
  revert p
  cases q <;> decide

theorem profileOperand_eq_none {p : BitVec 8} : profileOperand p = none ↔ 3 < p.toNat := by
  unfold profileOperand
  repeat' split
  all_goals simp
  all_goals omega

theorem groupOperand_eq_some {n : Nat} {t : Vector (BitVec 2) 5} {ts : List Trit} :
    groupOperand n t = some ts ↔
      (∀ f ∈ t.toList.take n, f.toNat ≠ 3) ∧ (∀ f ∈ t.toList.drop n, f.toNat = 0) ∧
        ts = (t.toList.take n).map fun f => tritOf f.toNat := by
  unfold groupOperand
  split
  · next h =>
    simp only [List.any_eq_true, beq_iff_eq] at h
    obtain ⟨f, hf, h3⟩ := h
    simp only [reduceCtorEq, false_iff, not_and]
    intro hall
    exact absurd h3 (hall f hf)
  · next h =>
    simp only [List.any_eq_true, beq_iff_eq, not_exists, not_and] at h
    split
    · next h0 =>
      simp only [List.any_eq_true, bne_iff_ne] at h0
      obtain ⟨f, hf, hne⟩ := h0
      simp only [reduceCtorEq, false_iff, not_and]
      intro _ hall
      exact absurd (hall f hf) hne
    · next h0 =>
      simp only [List.any_eq_true, bne_iff_ne, not_exists, not_and, not_not] at h0
      simp only [Option.some.injEq]
      exact ⟨fun e => ⟨h, h0, e.symm⟩, fun e => e.2.2.symm⟩

/-! ### Digits and coefficients -/

theorem coeff_of_lt {n i : Nat} (v : Vector Sym n) (h : i < n) : coeff v i = v[i] := by simp [coeff, h]

theorem coeff_of_ge {n i : Nat} (v : Vector Sym n) (h : n ≤ i) : coeff v i = 0 := by
  simp [coeff, Nat.not_lt.mpr h]

theorem coeff_ofFn {n i : Nat} (f : Fin n → Sym) (h : i < n) : coeff (Vector.ofFn f) i = f ⟨i, h⟩ := by
  simp [coeff, h]

theorem coeff_setIfInBounds {n i j : Nat} (v : Vector Sym n) (x : Sym) (h : i < n) :
    coeff (v.setIfInBounds i x) j = if j = i then x else coeff v j := by
  unfold coeff
  split
  · next hj =>
    rw [Vector.getElem_setIfInBounds]
    by_cases hji : j = i
    · simp [hji]
    · simp [hji, Ne.symm hji]
  · next hj =>
    have : j ≠ i := by omega
    simp [this]

theorem locEntry_of_lt {i : Nat} (v : Vector Bool 26) (h : i < 26) : locEntry v i = v[i] := by simp [locEntry, h]

theorem dig_symOf (a b c : Trit) : dig (symOf a b c) 0 = a ∧ dig (symOf a b c) 1 = b ∧ dig (symOf a b c) 2 = c := by
  revert a b c
  decide

theorem symOf_dig (a : Sym) : symOf (dig a 0) (dig a 1) (dig a 2) = a := by
  revert a
  decide

/-! ### Buffer access -/

@[simp] theorem respond_memRead (s : State) (c : ResultCode) (d : Data) (b : BufId) (i : Nat) :
    (s.respond c d).memRead b i = s.memRead b i := by cases b <;> rfl

theorem locEntry_setIfInBounds {i j : Nat} (v : Vector Bool 26) (x : Bool) (h : i < 26) :
    locEntry (v.setIfInBounds i x) j = if j = i then x else locEntry v j := by
  unfold locEntry
  split
  · next hj =>
    rw [Vector.getElem_setIfInBounds]
    by_cases hji : j = i
    · simp [hji]
    · simp [hji, Ne.symm hji]
  · next hj =>
    have : j ≠ i := by omega
    simp [this]

/-- A write changes the element it names and no other (R51, R244). -/
theorem memRead_memWrite (s : State) {b : BufId} {i : Nat} {v : Sym} (h : i < b.length)
    (hv : b = .loc → v.val ≤ 1) (b' : BufId) (j : Nat) :
    (s.memWrite b i v).memRead b' j = if b' = b ∧ j = i then v else s.memRead b' j := by
  cases b <;> cases b'
  case loc.loc =>
    have hv01 : v = 0 ∨ v = 1 := by
      have := hv rfl
      revert v
      decide
    have e : locEntry (s.memWrite .loc i v).loc j = if j = i then v != 0 else locEntry s.loc j :=
      locEntry_setIfInBounds _ _ h
    simp only [State.memRead, e, true_and]
    by_cases hji : j = i
    · rcases hv01 with rfl | rfl <;> simp [hji]
    · simp [hji]
  case cw.cw | syn.syn | sig.sig | omg.omg | w.w =>
    simp only [State.memWrite, State.memRead, true_and]
    exact coeff_setIfInBounds _ v h
  all_goals simp [State.memWrite, State.memRead]

/-! ### The decoder -/

theorem coeff_syndromes {r j : Nat} (cw : Vector Sym 26) (h : j < 8) :
    coeff (syndromes r cw) j = if j < r then syndrome cw j else 0 := by
  rw [syndromes, coeff_ofFn _ h]

theorem syndromesZero_eq_true {r : Nat} {syn : Vector Sym 8} :
    syndromesZero r syn = true ↔ ∀ j < r, coeff syn j = 0 := by
  simp [syndromesZero]

theorem profile_r_le (p : Profile) : p.r ≤ 8 := by cases p <;> decide

theorem chienSearch_entry (sig : Vector Sym 9) {pos : Nat} (h : pos < 26) :
    locEntry (chienSearch sig) pos = (locatorAt sig pos == 0) := by
  simp [locEntry, chienSearch, h]

theorem rootCount_le (loc : Vector Bool 26) : rootCount loc ≤ 26 := by
  have := List.countP_le_length (p := id) (l := loc.toList)
  simpa [rootCount] using this

/-- The three ways a round of Berlekamp–Massey ends (R173). -/
theorem bmStep_cases (syn : Vector Sym 8) (st : BmState) (n : Nat) :
    (bmDiscrepancy syn st n = 0 ∧ bmStep syn st n = { st with m := st.m + 1 }) ∨
    (bmDiscrepancy syn st n ≠ 0 ∧ 2 * st.len ≤ n ∧
      bmStep syn st n =
        { c := bmUpdate st.c st.b (gfMul (bmDiscrepancy syn st n) (gfInv st.disc)) st.m
          b := st.c
          len := n + 1 - st.len
          m := 1
          disc := bmDiscrepancy syn st n }) ∨
    (bmDiscrepancy syn st n ≠ 0 ∧ n < 2 * st.len ∧
      bmStep syn st n =
        { st with
          c := bmUpdate st.c st.b (gfMul (bmDiscrepancy syn st n) (gfInv st.disc)) st.m
          m := st.m + 1 }) := by
  by_cases hd : bmDiscrepancy syn st n = 0
  · left
    simp [bmStep, hd]
  · right
    by_cases hl : 2 * st.len ≤ n
    · left
      simp [bmStep, hd, hl]
    · right
      simp [bmStep, hd, hl]
      omega

/-- A coefficient after the update of C in a round of Berlekamp–Massey (R173). -/
theorem coeff_bmUpdate (cur old : Vector Sym 9) (coef : Sym) (m : Nat) {i : Nat} (h : i < 9) :
    coeff (bmUpdate cur old coef m) i =
      if m ≤ i then gfSub (coeff cur i) (gfMul coef (coeff old (i - m))) else coeff cur i := by
  rw [bmUpdate, coeff_ofFn _ h]
  simp [coeff, h]

theorem coeff_evaluator {r i : Nat} (sig : Vector Sym 9) (syn : Vector Sym 8) (h : i < 8) :
    coeff (evaluator r sig syn) i =
      if i < r then gfSum (i + 1) fun j => gfMul (coeff sig j) (coeff syn (i - j)) else 0 := by
  rw [evaluator, coeff_ofFn _ h]

/-- How RS.DEC ends: at zero syndromes, at RS.BM, at RS.CHIEN, or at RS.FORNEY (R181). -/
theorem decodeWord_cases (s : State) :
    ((synStage s).st.sz = true ∧ decodeWord s = (synStage s).respond .ok 0) ∨
    ((synStage s).st.sz = false ∧ (bmStage (synStage s)).uncorrectable = true ∧
      decodeWord s = (bmStage (synStage s)).finish) ∨
    ((synStage s).st.sz = false ∧ (bmStage (synStage s)).uncorrectable = false ∧
      (chienStage (bmStage (synStage s)).state).uncorrectable = true ∧
      decodeWord s = (chienStage (bmStage (synStage s)).state).finish) ∨
    ((synStage s).st.sz = false ∧ (bmStage (synStage s)).uncorrectable = false ∧
      (chienStage (bmStage (synStage s)).state).uncorrectable = false ∧
      decodeWord s = (forneyStage (chienStage (bmStage (synStage s)).state).state).finish) := by
  unfold decodeWord
  cases h1 : (synStage s).st.sz
  · cases h2 : (bmStage (synStage s)).uncorrectable
    · cases h3 : (chienStage (bmStage (synStage s)).state).uncorrectable <;> simp_all
    · simp_all
  · simp_all

/-! ### The CRC register -/

/-- Every position of `crc_step` (R221). -/
theorem crcStep_getElem (reg : Vector Trit 12) (t : Trit) (i : Nat) (h : i < 12) :
    (crcStep reg t)[i] =
      if i = 0 then crcFeedback reg t
      else if i = 3 ∨ i = 4 ∨ i = 7 then reg[i - 1] + crcFeedback reg t
      else reg[i - 1] := by
  interval_cases i <;> simp [crcStep]

@[simp] theorem crcFeed_nil (reg : Vector Trit 12) : crcFeed reg [] = reg := rfl

@[simp] theorem crcFeed_cons (reg : Vector Trit 12) (t : Trit) (ts : List Trit) :
    crcFeed reg (t :: ts) = crcFeed (crcStep reg t) ts := rfl

/-! ### Running a command word -/

theorem runWord_of_ok {w : Word} {i : Instr} (h : decode w = .ok i) (s : State) : runWord w s = exec i s := by
  simp [runWord, h]

theorem runWord_of_error {w : Word} {e : DecodeError} (h : decode w = .error e) (s : State) :
    runWord w s = .next (s.raise .illegalCommand) := by
  simp [runWord, h]

/-- Everything a step can do: nothing is pending, a hardware reset, or a command word (R7, R8, R290). -/
theorem step_cases (s : State) :
    (s.pending = [] ∧ step s = .next s) ∨
    (∃ rest, s.pending = .hardwareReset :: rest ∧ step s = .next (State.toReset { s with pending := rest })) ∨
    (∃ w rest, s.pending = .command w :: rest ∧ step s = runWord w { s with pending := rest }) := by
  unfold step takeEvent
  match h : s.pending with
  | [] => simp
  | .hardwareReset :: rest => simp [runEvent]
  | .command w :: rest => simp [runEvent]

/-! ### Host procedures -/

/-- When unpacking a vector gives trits: its first byte is a packed value of min n 5 trits, and the rest unpacks. -/
theorem unpackVector_cons_eq_some {b : Byte} {bs : List Byte} {n : Nat} {ts : List Trit} :
    unpackVector (b :: bs) n = some ts ↔
      0 < n ∧ b.toNat < 3 ^ min n 5 ∧
        ∃ rest, unpackVector bs (n - 5) = some rest ∧ ts = digits b.toNat (min n 5) ++ rest := by
  rw [unpackVector]
  split
  · next h =>
    simp only [reduceCtorEq, false_iff]
    rintro ⟨hn, hb, -⟩
    omega
  · next h =>
    simp only [not_or, not_le] at h
    simp only [Option.map_eq_some_iff, Nat.pos_of_ne_zero h.1, h.2, true_and]
    exact ⟨fun ⟨r, hr, e⟩ => ⟨r, hr, e.symm⟩, fun ⟨r, hr, e⟩ => ⟨r, hr, e.symm⟩⟩

end Sys2Proof.Machine
end

