-- ==== Sys2Proof/Laws/PerInstr.lean ====
section
/-! SUPPORT. Lemmas per instruction, about the instruction as syntax: the row of the opcode map (30_encoding.md R78) its
encoding selects. -/

namespace Sys2Proof.Laws.RowSelected

/-- The encoding of the instruction selects a row of the opcode map that its opcode finds: the bits under the row's
mask are the row's pattern (R78, R81). -/
def Statement (i : Instr) : Prop :=
  ∃ r, rowOf (opcode (encode i)) = some r ∧ encode i &&& r.mask = r.pattern

/-- A word selects the row `r` its opcode finds when its opcode is the row's and its masked bits are the pattern. -/
theorem of_row {i : Instr} (op : BitVec 6) (r : Row) (hrow : rowOf op = some r) (hop : opcode (encode i) = op)
    (hmask : encode i &&& r.mask = r.pattern) : Statement i := ⟨r, by rw [hop, hrow], hmask⟩

theorem nop : Statement .nop := of_row 0x00#6 _ rfl (by decide) (by decide)

theorem statRd : Statement .statRd := of_row 0x01#6 _ rfl (by decide) (by decide)

theorem statClr : Statement .statClr := of_row 0x02#6 _ rfl (by decide) (by decide)

theorem reset : Statement .reset := of_row 0x03#6 _ rfl (by decide) (by decide)

theorem tritB2u (t : Vector (BitVec 2) 13) : Statement (.tritB2u t) := by
  refine of_row 0x08#6 _ rfl ?_ ?_ <;> refine BitVec.eq_of_getLsbD_eq fun i hi => ?_ <;> interval_cases i <;>
    simp [opcode, field, encode, place, placeLanes]

theorem tritU2b (t : Vector (BitVec 2) 13) : Statement (.tritU2b t) := by
  refine of_row 0x09#6 _ rfl ?_ ?_ <;> refine BitVec.eq_of_getLsbD_eq fun i hi => ?_ <;> interval_cases i <;>
    simp [opcode, field, encode, place, placeLanes]

theorem pack243 (k : BitVec 3) (t : Vector (BitVec 2) 5) : Statement (.pack243 k t) := by
  refine of_row 0x0A#6 _ rfl ?_ ?_ <;> refine BitVec.eq_of_getLsbD_eq fun i hi => ?_ <;> interval_cases i <;>
    simp [opcode, field, encode, place]

theorem unpk243 (k : BitVec 3) (byte : BitVec 8) : Statement (.unpk243 k byte) := by
  refine of_row 0x0B#6 _ rfl ?_ ?_ <;> refine BitVec.eq_of_getLsbD_eq fun i hi => ?_ <;> interval_cases i <;>
    simp [opcode, field, encode, place]

theorem gfAdd (a b : BitVec 5) : Statement (.gfAdd a b) := by
  refine of_row 0x10#6 _ rfl ?_ ?_ <;> refine BitVec.eq_of_getLsbD_eq fun i hi => ?_ <;> interval_cases i <;>
    simp [opcode, field, encode, place]

theorem gfSub (a b : BitVec 5) : Statement (.gfSub a b) := by
  refine of_row 0x11#6 _ rfl ?_ ?_ <;> refine BitVec.eq_of_getLsbD_eq fun i hi => ?_ <;> interval_cases i <;>
    simp [opcode, field, encode, place]

theorem gfMul (a b : BitVec 5) : Statement (.gfMul a b) := by
  refine of_row 0x12#6 _ rfl ?_ ?_ <;> refine BitVec.eq_of_getLsbD_eq fun i hi => ?_ <;> interval_cases i <;>
    simp [opcode, field, encode, place]

theorem gfInv (a : BitVec 5) : Statement (.gfInv a) := by
  refine of_row 0x13#6 _ rfl ?_ ?_ <;> refine BitVec.eq_of_getLsbD_eq fun i hi => ?_ <;> interval_cases i <;>
    simp [opcode, field, encode, place]

theorem gfPowa (e : BitVec 16) : Statement (.gfPowa e) := by
  refine of_row 0x14#6 _ rfl ?_ ?_ <;> refine BitVec.eq_of_getLsbD_eq fun i hi => ?_ <;> interval_cases i <;>
    simp [opcode, field, encode, place]

theorem bufWr (buf : BitVec 3) (idx sym : BitVec 5) : Statement (.bufWr buf idx sym) := by
  refine of_row 0x18#6 _ rfl ?_ ?_ <;> refine BitVec.eq_of_getLsbD_eq fun i hi => ?_ <;> interval_cases i <;>
    simp [opcode, field, encode, place]

theorem bufRd (buf : BitVec 3) (idx : BitVec 5) : Statement (.bufRd buf idx) := by
  refine of_row 0x19#6 _ rfl ?_ ?_ <;> refine BitVec.eq_of_getLsbD_eq fun i hi => ?_ <;> interval_cases i <;>
    simp [opcode, field, encode, place]

theorem rsCfg (p : BitVec 8) : Statement (.rsCfg p) := by
  refine of_row 0x20#6 _ rfl ?_ ?_ <;> refine BitVec.eq_of_getLsbD_eq fun i hi => ?_ <;> interval_cases i <;>
    simp [opcode, field, encode, place]

theorem rsEnc : Statement .rsEnc := of_row 0x21#6 _ rfl (by decide) (by decide)

theorem rsSyn : Statement .rsSyn := of_row 0x22#6 _ rfl (by decide) (by decide)

theorem rsBm : Statement .rsBm := of_row 0x23#6 _ rfl (by decide) (by decide)

theorem rsChien : Statement .rsChien := of_row 0x24#6 _ rfl (by decide) (by decide)

theorem rsForney : Statement .rsForney := of_row 0x25#6 _ rfl (by decide) (by decide)

theorem rsDec : Statement .rsDec := of_row 0x26#6 _ rfl (by decide) (by decide)

theorem crcInit : Statement .crcInit := of_row 0x28#6 _ rfl (by decide) (by decide)

theorem crcTrit (t : BitVec 2) : Statement (.crcTrit t) := by
  refine of_row 0x29#6 _ rfl ?_ ?_ <;> refine BitVec.eq_of_getLsbD_eq fun i hi => ?_ <;> interval_cases i <;>
    simp [opcode, field, encode, place]

theorem crcSym (a : BitVec 5) : Statement (.crcSym a) := by
  refine of_row 0x2A#6 _ rfl ?_ ?_ <;> refine BitVec.eq_of_getLsbD_eq fun i hi => ?_ <;> interval_cases i <;>
    simp [opcode, field, encode, place]

theorem crcFin : Statement .crcFin := of_row 0x2B#6 _ rfl (by decide) (by decide)

theorem crcRd : Statement .crcRd := of_row 0x2C#6 _ rfl (by decide) (by decide)

theorem pixLd (n : BitVec 1) (y : BitVec 9) (cb cr : BitVec 8) : Statement (.pixLd n y cb cr) := by
  refine of_row 0x30#6 _ rfl ?_ ?_ <;> refine BitVec.eq_of_getLsbD_eq fun i hi => ?_ <;> interval_cases i <;>
    simp [opcode, field, encode, place]

theorem pixRd (n : BitVec 1) : Statement (.pixRd n) := by
  refine of_row 0x31#6 _ rfl ?_ ?_ <;> refine BitVec.eq_of_getLsbD_eq fun i hi => ?_ <;> interval_cases i <;>
    simp [opcode, field, encode, place]

theorem pixPack2 : Statement .pixPack2 := of_row 0x32#6 _ rfl (by decide) (by decide)

theorem pixPack1 : Statement .pixPack1 := of_row 0x33#6 _ rfl (by decide) (by decide)

theorem pixUnpk2 : Statement .pixUnpk2 := of_row 0x34#6 _ rfl (by decide) (by decide)

theorem pixUnpk1 : Statement .pixUnpk1 := of_row 0x35#6 _ rfl (by decide) (by decide)

end Sys2Proof.Laws.RowSelected
end

