-- ==== Sys2Proof/Tests/Slice0.lean ====
section
/-! SUPPORT. Tests of the model: ill-formed commands, the decoding of words the spec prints, one-step results the spec
prints, and a witness for the hypotheses of every statement that has any. Expected values are from the examples of the
rules named, or from spec/95_test_vectors.md. -/

namespace Sys2Proof.Tests

open Sys2Proof Sys2Proof.Machine

/-! ### Helpers -/

/-- The next state of a result, or the reset state with no response if there is none. -/
def after : Result → State
  | .next t => t
  | _ => State.reset

/-- Is the result a next state? -/
def completes : Result → Bool
  | .next _ => true
  | _ => false

/-- The one response of a command run on a state with no response before, in its place. -/
def answer (r : Result) : List Word := (after r).responses

/-- The reset state with a profile. -/
def withProfile (p : Profile) : State := { State.reset with st := { Status.reset with psel := p } }

/-- Twenty-six symbols, the listed positions as given and the others zero. -/
def wordWith (es : List (Nat × Sym)) : Vector Sym 26 :=
  es.foldl (fun v e => v.setIfInBounds e.1 e.2) (Vector.replicate 26 0)

/-- LOC with the listed positions set. -/
def locWith (ps : List Nat) : Vector Bool 26 :=
  ps.foldl (fun v p => v.setIfInBounds p true) (Vector.replicate 26 false)

/-- The state of the examples of R172 to R181: profile P2, CW zero but CW[3] = 23 and CW[17] = 14. -/
def received : State := { withProfile .p2 with cw := wordWith [(3, 23), (17, 14)] }

/-- The syndromes of that word (R172, example). -/
def receivedSyn : Vector Sym 8 := #v[2, 1, 9, 24, 0, 0, 0, 0]

/-- Its locator (R174, example). -/
def receivedSig : Vector Sym 9 := #v[1, 13, 22, 0, 0, 0, 0, 0, 0]

/-- The stage input of the RS.CHIEN and RS.FORNEY examples (R176, R180). -/
def located : State :=
  { received with
    syn := receivedSyn
    sig := receivedSig
    loc := locWith [3, 17]
    st := { received.st with len := 2, nroot := 2 } }

/-- The pixels of the example of R206. -/
def pixels : State := { State.reset with px := #v[⟨76, -15, 40⟩, ⟨242, 40, -40⟩] }

/-- A state at the edges of the invariant's ranges. -/
def edges : State :=
  { State.reset with
    px := #v[⟨0, -40, 40⟩, ⟨242, 40, -40⟩]
    st := { Status.reset with psel := .p4, len := 8, nroot := 26, lasterr := .rsUncorrectable } }

/-! ### Ill-formed commands, one for each check -/

theorem refuse_symbolField : (Instr.gfAdd 27 0).wellFormed = false ∧ (Instr.gfInv 31).wellFormed = false := by decide
theorem refuse_tritField : (Instr.crcTrit 3).wellFormed = false := by decide
theorem refuse_groupCount :
    (Instr.pack243 0 (Vector.replicate 5 0)).wellFormed = false ∧ (Instr.unpk243 6 0).wellFormed = false := by decide
theorem refuse_groupLanes :
    (Instr.pack243 5 #v[0, 0, 0, 0, 3]).wellFormed = false ∧
      (Instr.pack243 2 #v[0, 0, 1, 0, 0]).wellFormed = false := by decide
theorem refuse_groupByte : (Instr.unpk243 5 243).wellFormed = false ∧ (Instr.unpk243 1 3).wellFormed = false := by decide
theorem refuse_bufferAddress :
    (Instr.bufRd 1 8).wellFormed = false ∧ (Instr.bufWr 6 0 0).wellFormed = false := by decide
theorem refuse_bufferValue :
    (Instr.bufWr 0 0 27).wellFormed = false ∧ (Instr.bufWr 5 0 2).wellFormed = false := by decide
theorem refuse_profileField : (Instr.rsCfg 4).wellFormed = false := by decide

/-! ### Decoding: a word of the spec for every command, and words that are none -/

theorem decode_nop : decode 0x00000000#32 = .ok .nop := by decide
theorem decode_statRd : decode 0x04000000#32 = .ok .statRd := by decide
theorem decode_statClr : decode 0x08000000#32 = .ok .statClr := by decide
theorem decode_reset : decode 0x0C000000#32 = .ok .reset := by decide
theorem decode_tritB2u :
    decode 0x200000B4#32 = .ok (.tritB2u #v[0, 1, 3, 2, 0, 0, 0, 0, 0, 0, 0, 0, 0]) := by decide
theorem decode_tritU2b :
    decode 0x240000E4#32 = .ok (.tritU2b #v[0, 1, 2, 3, 0, 0, 0, 0, 0, 0, 0, 0, 0]) := by decide
theorem decode_pack243 : decode 0x28001521#32 = .ok (.pack243 5 #v[1, 0, 2, 0, 1]) := by decide
theorem decode_unpk243 : decode 0x2C000564#32 = .ok (.unpk243 5 100) := by decide
theorem decode_gfAdd : decode 0x40000123#32 = .ok (.gfAdd 3 9) := by decide
theorem decode_gfSub : decode 0x44000020#32 = .ok (.gfSub 0 1) := by decide
theorem decode_gfMul : decode 0x48000123#32 = .ok (.gfMul 3 9) := by decide
theorem decode_gfInv : decode 0x4C000003#32 = .ok (.gfInv 3) := by decide
theorem decode_gfPowa : decode 0x50000005#32 = .ok (.gfPowa 5) := by decide
theorem decode_bufWr : decode 0x6000191A#32 = .ok (.bufWr 0 25 26) := by decide
theorem decode_bufRd : decode 0x64800800#32 = .ok (.bufRd 1 8) := by decide
theorem decode_rsCfg : decode 0x80000001#32 = .ok (.rsCfg 1) := by decide
theorem decode_rsEnc : decode 0x84000000#32 = .ok .rsEnc := by decide
theorem decode_rsSyn : decode 0x88000000#32 = .ok .rsSyn := by decide
theorem decode_rsBm : decode 0x8C000000#32 = .ok .rsBm := by decide
theorem decode_rsChien : decode 0x90000000#32 = .ok .rsChien := by decide
theorem decode_rsForney : decode 0x94000000#32 = .ok .rsForney := by decide
theorem decode_rsDec : decode 0x98000000#32 = .ok .rsDec := by decide
theorem decode_crcInit : decode 0xA0000000#32 = .ok .crcInit := by decide
theorem decode_crcTrit : decode 0xA4000001#32 = .ok (.crcTrit 1) := by decide
theorem decode_crcSym : decode 0xA8000005#32 = .ok (.crcSym 5) := by decide
theorem decode_crcFin : decode 0xAC000000#32 = .ok .crcFin := by decide
theorem decode_crcRd : decode 0xB0000000#32 = .ok .crcRd := by decide
theorem decode_pixLd : decode 0xC04CF128#32 = .ok (.pixLd 0 76 0xF1 40) := by decide
theorem decode_pixRd : decode 0xC4000001#32 = .ok (.pixRd 1) := by decide
theorem decode_pixPack2 : decode 0xC8000000#32 = .ok .pixPack2 := by decide
theorem decode_pixPack1 : decode 0xCC000000#32 = .ok .pixPack1 := by decide
theorem decode_pixUnpk2 : decode 0xD0000000#32 = .ok .pixUnpk2 := by decide
theorem decode_pixUnpk1 : decode 0xD4000000#32 = .ok .pixUnpk1 := by decide

/-- R79 (a): the ends of the ranges of unassigned opcodes. -/
theorem decode_unassigned :
    decode 0x10000000#32 = .error .unassignedOpcode ∧ decode 0x1C000000#32 = .error .unassignedOpcode ∧
      decode 0x54000000#32 = .error .unassignedOpcode ∧ decode 0x9C000000#32 = .error .unassignedOpcode ∧
      decode 0xFFFFFFFF#32 = .error .unassignedOpcode := by decide

/-- R79 (b): a must-be-zero bit set, among them the lowest and the highest of the gaps of BUF.WR. -/
theorem decode_mustBeZero :
    decode 0x04000001#32 = .error .mustBeZero ∧ decode 0x40000400#32 = .error .mustBeZero ∧
      decode 0x60000020#32 = .error .mustBeZero ∧ decode 0x60400000#32 = .error .mustBeZero ∧
      decode 0x64000001#32 = .error .mustBeZero ∧ decode 0xC4000002#32 = .error .mustBeZero := by decide

/-- R54: the least significant byte first; fewer than four bytes are no command. -/
theorem decode_link :
    decodeBytes [0x23, 0x01, 0x00, 0x40] = .ok (.gfAdd 3 9, []) ∧
      decodeBytes [0x23, 0x01, 0x00] = .error .truncated := by decide

/-- R82: the assembler on an example of each shape. -/
theorem assemble_examples :
    assemble "BUF.WR" [.name "CW", .num 25, .num 26] = some (.bufWr 0 25 26) ∧
      assemble "PIX.LD" [.num 0, .num 76, .num (-15), .num 40] = some (.pixLd 0 76 0xF1 40) ∧
      assemble "PACK243" [.num 5, .num 1, .num 0, .num 2, .num 0, .num 1] = some (.pack243 5 #v[1, 0, 2, 0, 1]) ∧
      assemble "RS.DEC" [] = some .rsDec ∧ assemble "GF.ADD" [.num 3] = none ∧
      assemble "GF.ADD" [.name "CW", .num 3] = none := by decide

/-! ### One step of each command -/

theorem test_nop : answer (execNop edges) = [0x00000000#32] ∧ (after (execNop edges)).st = edges.st := by decide
theorem test_statRd : answer (execStatRd edges) = [0x000350A3#32] := by decide
theorem test_statClr :
    let s := { State.reset with st := { Status.reset with inv0 := true, lasterr := .illegalCommand, unc := true } }
    answer (execStatRd s) = [0x00000038#32] ∧
      (after (execStatClr s)).st = { Status.reset with unc := true } := by decide
theorem test_reset : after (execReset edges) = { State.reset with responses := [0x00000000#32] } := by decide
theorem test_tritB2u :
    answer (execTritB2u #v[0, 1, 3, 2, 0, 0, 0, 0, 0, 0, 0, 0, 0] State.reset) = [0x01555509#32] := by decide
theorem test_tritU2b :
    answer (execTritU2b #v[0, 1, 2, 3, 0, 0, 0, 0, 0, 0, 0, 0, 0] State.reset) = [0x03FFFF53#32] := by decide
theorem test_pack243 : answer (execPack243 5 #v[1, 0, 2, 0, 1] State.reset) = [0x00000064#32] := by decide
theorem test_pack243_lane : answer (execPack243 5 #v[0, 3, 0, 0, 0] State.reset) = [0x20000000#32] := by decide
theorem test_unpk243 : answer (execUnpk243 5 100 State.reset) = [0x00000121#32] := by decide
theorem test_unpk243_byte : answer (execUnpk243 5 243 State.reset) = [0x20000000#32] := by decide
theorem test_gfAdd : answer (execGfAdd 3 9 State.reset) = [0x0000000C#32] := by decide
theorem test_gfAdd_noCarry : answer (execGfAdd 26 26 State.reset) = [0x0000000D#32] := by decide
theorem test_gfSub : answer (execGfSub 0 1 State.reset) = [0x00000002#32] := by decide
theorem test_gfSub_order :
    answer (execGfSub 5 7 State.reset) = [0x00000007#32] ∧ answer (execGfSub 7 5 State.reset) = [0x00000005#32] := by
  decide
theorem test_gfMul : answer (execGfMul 3 9 State.reset) = [0x00000005#32] := by decide
theorem test_gfMul_refused : answer (execGfMul 3 27 State.reset) = [0x20000000#32] := by decide
theorem test_gfInv : answer (execGfInv 3 State.reset) = [0x00000013#32] := by decide
theorem test_gfInv_zero :
    answer (execGfInv 0 State.reset) = [0x00000000#32] ∧ (after (execGfInv 0 State.reset)).st.inv0 = true := by decide
theorem test_gfPowa : answer (execGfPowa 5 State.reset) = [0x00000017#32] := by decide
theorem test_gfPowa_reduced : answer (execGfPowa 65535 State.reset) = [0x00000012#32] := by decide
theorem test_bufWr :
    (after (execBufWr 0 25 26 State.reset)).cw = wordWith [(25, 26)] ∧
      answer (execBufWr 0 25 26 State.reset) = [0x00000000#32] := by decide
theorem test_bufWr_priority :
    answer (execBufWr 6 0 31 State.reset) = [0x30000000#32] ∧
      answer (execBufWr 5 0 2 State.reset) = [0x20000000#32] := by decide
theorem test_bufRd : answer (execBufRd 0 25 { State.reset with cw := wordWith [(25, 26)] }) = [0x0000001A#32] := by
  decide
theorem test_bufRd_outOfRange : answer (execBufRd 1 8 State.reset) = [0x30000000#32] := by decide
theorem test_rsCfg : (after (execRsCfg 1 State.reset)).st = (withProfile .p2).st := by decide
theorem test_rsCfg_refused : answer (execRsCfg 4 State.reset) = [0x40000000#32] := by decide
/-- R155, example: the message 1 at CW[4] gives g itself. -/
theorem test_rsEnc :
    (after (execRsEnc { withProfile .p2 with cw := wordWith [(4, 1), (0, 7)] })).cw =
      wordWith [(0, 12), (1, 24), (2, 15), (3, 16), (4, 1)] := by decide +kernel
theorem test_rsSyn :
    (after (execRsSyn received)).syn = receivedSyn ∧ answer (execRsSyn received) = [0x00000000#32] := by
  decide +kernel
theorem test_rsSyn_zero :
    (after (execRsSyn edges)).st.sz = true ∧ answer (execRsSyn edges) = [0x00000001#32] := by decide +kernel
theorem test_rsBm :
    (after (execRsBm { received with syn := receivedSyn })).sig = receivedSig ∧
      answer (execRsBm { received with syn := receivedSyn }) = [0x00000002#32] := by decide +kernel
/-- R174: with r = 2, SYN = (0, s) gives L = 2 > t. -/
theorem test_rsBm_uncorrectable :
    answer (execRsBm { State.reset with syn := #v[0, 5, 0, 0, 0, 0, 0, 0] }) = [0x50000002#32] := by decide +kernel
theorem test_rsChien :
    (after (execRsChien { located with loc := locWith [] })).loc = locWith [3, 17] ∧
      answer (execRsChien { located with loc := locWith [] }) = [0x00000002#32] := by decide +kernel
/-- R293: directly after reset SIG is zero everywhere. -/
theorem test_rsChien_reset : answer (execRsChien State.reset) = [0x5000001A#32] := by decide +kernel
theorem test_rsForney :
    (after (execRsForney located)).cw = wordWith [] ∧
      (after (execRsForney located)).omg = #v[2, 24, 0, 0, 0, 0, 0, 0] := by decide +kernel
/-- R293: directly after reset RS.FORNEY corrects nothing. -/
theorem test_rsForney_reset : answer (execRsForney State.reset) = [0x00000000#32] := by decide +kernel
theorem test_rsDec :
    answer (execRsDec received) = [0x00000002#32] ∧ (after (execRsDec received)).cw = wordWith [] ∧
      answer (execStatRd { after (execRsDec received) with responses := [] }) = [0x00004401#32] := by decide +kernel
/-- R184: the pattern of weight t + 1 that is decoded to another codeword, and the one that is rejected. -/
theorem test_rsDec_beyond :
    (after (execRsDec { State.reset with cw := wordWith [(0, 1), (1, 22)] })).cw =
        wordWith [(0, 1), (1, 22), (2, 24)] ∧
      (after (execRsDec { State.reset with cw := wordWith [(0, 1), (1, 11)] })).st.lasterr = .rsUncorrectable := by
  decide +kernel
theorem test_crcInit :
    (after (execCrcInit { State.reset with crc := Vector.replicate 12 2 })).crc = Vector.replicate 12 0 := by decide
theorem test_crcTrit :
    (after (execCrcTrit 1 State.reset)).crc = #v[1, 0, 0, 1, 1, 0, 0, 1, 0, 0, 0, 0] := by decide
theorem test_crcTrit_refused : answer (execCrcTrit 3 State.reset) = [0x20000000#32] := by decide
theorem test_crcSym :
    (after (execCrcSym 5 State.reset)).crc = #v[0, 1, 2, 0, 1, 0, 2, 0, 1, 2, 0, 0] := by decide
theorem test_crcFin :
    (after (execCrcFin { State.reset with crc := #v[1, 0, 0, 1, 1, 0, 0, 1, 0, 0, 0, 0] })).crc =
      #v[1, 0, 1, 2, 2, 1, 2, 1, 1, 1, 2, 2] := by decide
theorem test_crcRd :
    answer (execCrcRd { State.reset with crc := #v[1, 0, 1, 2, 2, 1, 2, 1, 1, 1, 2, 2] }) = [0x00A56691#32] := by
  decide
theorem test_pixLd :
    answer (execPixLd 0 76 0xF1 40 State.reset) = [0x00000000#32] ∧
      (after (execPixLd 0 76 0xF1 40 State.reset)).px = #v[⟨76, -15, 40⟩, ⟨0, 0, 0⟩] := by decide
theorem test_pixLd_clamped :
    answer (execPixLd 0 255 0x80 0x7F State.reset) = [0x00000001#32] ∧
      (after (execPixLd 0 255 0x80 0x7F State.reset)).px = #v[⟨242, -40, 40⟩, ⟨0, 0, 0⟩] := by decide
theorem test_pixRd : answer (execPixRd 1 pixels) = [0x00F228D8#32] := by decide
theorem test_pixPack2 : (after (execPixPack2 pixels)).w = #v[22, 11, 8, 26, 26, 26, 26, 2, 0] := by decide
theorem test_pixPack1 : (after (execPixPack1 pixels)).w = #v[22, 11, 8, 26, 2, 0, 0, 0, 0] := by decide
theorem test_pixUnpk2 :
    (after (execPixUnpk2 { State.reset with w := Vector.replicate 9 26 })).px = #v[⟨242, 40, 40⟩, ⟨242, 40, 40⟩] := by
  decide
theorem test_pixUnpk1 :
    (after (execPixUnpk1 { State.reset with w := #v[22, 11, 8, 26, 2, 0, 0, 0, 0] })).px =
      #v[⟨76, -15, 40⟩, ⟨0, 0, 0⟩] := by decide

/-- R107: seven trits from two bytes; the model's choice for a byte of 3^k, a missing byte and one too many (log 17). -/
theorem test_unpackVector :
    unpackVector [242, 8] 7 = some [2, 2, 2, 2, 2, 2, 2] ∧ unpackVector [242, 9] 7 = none ∧
      unpackVector [242] 7 = none ∧ unpackVector [242, 8, 0] 7 = none := by decide

/-! ### Steps -/

theorem test_step : answer (step (State.reset.withFetchWord 32 0x48000123)) = [0x00000005#32] := by decide
theorem test_step_illegal :
    answer (step (State.reset.withFetchWord 32 0x04000001)) = [0x10000000#32] ∧
      (after (step (State.reset.withFetchWord 32 0x04000001))).st.lasterr = .illegalCommand := by decide
theorem test_step_hardwareReset :
    after (step { edges with pending := [.hardwareReset] }) = State.reset := by decide

/-! ### Witnesses: what each statement assumes is met, at the ends of its ranges -/

theorem witness_EncodeOfDecode : decode 0xC3FF807F#32 = .ok (.pixLd 1 511 0x80 0x7F) := by decide

theorem witness_UnselectedWordsAreIllegal :
    (∀ row ∈ printedRows, 0xFC000000#32 &&& row.2 ≠ row.1) ∧
      ((0x10000000#32).extractLsb' 26 6).toNat ∈ printedUnassigned ∧
      ((0xFC000000#32).extractLsb' 26 6).toNat ∈ printedUnassigned ∧
      (∃ row ∈ printedRows, (0x04000001#32).extractLsb' 26 6 = row.1.extractLsb' 26 6 ∧
        0x04000001#32 &&& row.2 ≠ row.1) ∧
      (∃ row ∈ printedRows, 0xD4000000#32 &&& row.2 = row.1) := by
  refine ⟨?_, by decide, by decide, ⟨(0x04000000#32, 0xFFFFFFFF#32), by decide, by decide⟩,
    ⟨(0xD4000000#32, 0xFFFFFFFF#32), by decide, by decide⟩⟩
  rw [← List.forall_iff_forall_mem]
  decide +kernel

theorem witness_LinkIsLittleEndian :
    decode 0x40000123#32 = .ok (.gfAdd 3 9) ∧ decode 0x40000523#32 = .error .mustBeZero := by decide

theorem witness_StepRunsDecodedCommand :
    (State.reset.withNextCommand 0x98000000#32).pending = .command 0x98000000#32 :: [] ∧
      decode 0x98000000#32 = .ok .rsDec ∧
      (State.reset.withNextCommand 0x98000001#32).pending = .command 0x98000001#32 :: [] ∧
      decode 0x98000001#32 = .error .mustBeZero := by decide

theorem witness_StepIdlesAndResets :
    edges.pending = [] ∧ ({ edges with pending := [.hardwareReset] } : State).pending = .hardwareReset :: [] := by decide

theorem witness_RunsFoldAndAnswerInOrder : edges.pending = [] := by decide

/-- A PIX.LD at the ends of the ranges, from a state at the ends of the ranges. -/
theorem witness_StepKeepsInvariant :
    edges.Inv ∧ completes (step (edges.withNextCommand 0xC0FF807F#32)) = true ∧
      (edges.withNextCommand 0xC0FF807F#32).Inv := by decide +kernel

theorem witness_FaultChangesOnlyLasterr :
    answer (runWord 0xFFFFFFFF#32 edges) = [ResultCode.illegalCommand.code ++ 0#28] ∧
      ResultCode.illegalCommand.isFault = true ∧
      answer (runWord 0x80000004#32 edges) = [ResultCode.invalidProfile.code ++ 0#28] ∧
      ResultCode.invalidProfile.isFault = true := by decide

theorem witness_FaultsAreTheRefusedOperands :
    (Instr.bufWr 5 25 1).wellFormed = true ∧ (Instr.bufWr 5 25 2).wellFormed = false ∧
      (Instr.bufWr 5 26 2).wellFormed = false ∧ faultOf (.bufWr 5 25 2) = .badOperand ∧
      faultOf (.bufWr 5 26 2) = .outOfRange := by decide

theorem witness_LasterrFollowsTheResponses :
    answer (runWord 0x30000000#32 edges) = [ResultCode.illegalCommand.code ++ 0#28] ∧
      ResultCode.illegalCommand.isFault = true := by decide

/-- RS.CHIEN after reset, and RS.DEC of the rejected word of R184. -/
theorem witness_UncorrectableKeepsTheWord :
    answer (exec .rsChien State.reset) = [ResultCode.rsUncorrectable.code ++ 26#28] ∧
      answer (exec .rsDec { State.reset with cw := wordWith [(0, 1), (1, 11)] }) =
        [ResultCode.rsUncorrectable.code ++ 2#28] := by decide +kernel

theorem witness_OnlyWritersChangeParts :
    Part.px ∉ writes .nop ∧ Part.crc ∉ writes .rsDec ∧ Part.syn ∉ writes (.bufWr 0 25 26) := by decide

/-- For SzReportsTheLastSyndromes, UncFollowsTheStages and Inv0IsSticky: a word that does not decode. -/
theorem witness_illegal_word : decode 0xFC000000#32 = .error .unassignedOpcode := by decide

theorem witness_StatRdLayout : edges.st.len ≤ 8 ∧ edges.st.nroot ≤ 26 ∧ edges.st.len = 8 ∧ edges.st.nroot = 26 := by
  decide

theorem witness_TritConvertersInvert :
    (∀ i : Fin 13, (#v[0, 1, 3, 0, 1, 3, 0, 1, 3, 0, 1, 3, 3] : Vector (BitVec 2) 13)[i] ≠ 0b10#2) ∧
      (∀ i : Fin 13, (#v[0, 1, 2, 0, 1, 2, 0, 1, 2, 0, 1, 2, 2] : Vector (BitVec 2) 13)[i] ≠ 0b11#2) := by decide

/-- k at 0, 1, 5 and 6; a lane of 3 below k, and a non-zero lane at k. -/
theorem witness_Pack243Result :
    answer (exec (.pack243 1 #v[2, 0, 0, 0, 0]) State.reset) = [0x00000002#32] ∧
      answer (exec (.pack243 5 #v[2, 2, 2, 2, 2]) State.reset) = [0x000000F2#32] ∧
      answer (exec (.pack243 0 #v[0, 0, 0, 0, 0]) State.reset) = [0x20000000#32] ∧
      answer (exec (.pack243 6 #v[0, 0, 0, 0, 0]) State.reset) = [0x20000000#32] ∧
      answer (exec (.pack243 4 #v[0, 0, 0, 0, 1]) State.reset) = [0x20000000#32] := by decide

/-- k at 0, 1, 5 and 6; the byte at 3^k − 1 and at 3^k. -/
theorem witness_Unpk243Result :
    answer (exec (.unpk243 1 2) State.reset) = [0x00000002#32] ∧
      answer (exec (.unpk243 1 3) State.reset) = [0x20000000#32] ∧
      answer (exec (.unpk243 5 242) State.reset) = [0x000002AA#32] ∧
      answer (exec (.unpk243 0 0) State.reset) = [0x20000000#32] ∧
      answer (exec (.unpk243 6 0) State.reset) = [0x20000000#32] := by decide

theorem witness_PackUnpackInverse :
    (Instr.pack243 1 #v[2, 0, 0, 0, 0]).wellFormed = true ∧ (Instr.pack243 5 #v[2, 2, 2, 2, 2]).wellFormed = true ∧
      (Instr.unpk243 1 2).wellFormed = true ∧ (Instr.unpk243 5 242).wellFormed = true := by decide

/-- Seven trits: the last byte holds two of them. -/
theorem witness_HostVectorRoundTrip :
    (packVector [2, 2, 2, 2, 2, 2, 2]).getLast? = some 8#8 ∧ ([2, 2, 2, 2, 2, 2, 2] : List Trit).length % 5 ≠ 0 := by
  decide

/-- For GfAddSubDigitwise, GfMulClosedForm and CrcSymAndFinAreTrits: a field at 26 and at 27. -/
theorem witness_symbol_fields : (26#5).toNat ≤ 26 ∧ ¬(27#5).toNat ≤ 26 ∧ (26#5).toNat < 27 ∧ ¬(27#5).toNat < 27 := by
  decide

theorem witness_GfInvInverts :
    (0#5).toNat < 27 ∧ (26#5).toNat < 27 ∧ (26#5) ≠ 0#5 ∧ ¬(27#5).toNat < 27 := by decide

/-- The last index and the one past it of CW, SYN and LOC; the last value and the one past it. -/
theorem witness_BufWrWritesOneElement :
    (25#5).toNat < WellFormed.bufferLength BufId.cw.id ∧ ¬(26#5).toNat < WellFormed.bufferLength BufId.cw.id ∧
      ¬(8#5).toNat < WellFormed.bufferLength BufId.syn.id ∧ (25#5).toNat < WellFormed.bufferLength BufId.loc.id ∧
      ((26#5).toNat ≤ 26 ∧ (BufId.cw = .loc → (26#5).toNat ≤ 1)) ∧
      ((1#5).toNat ≤ 26 ∧ (BufId.loc = .loc → (1#5).toNat ≤ 1)) ∧
      ¬((2#5).toNat ≤ 26 ∧ (BufId.loc = .loc → (2#5).toNat ≤ 1)) ∧ ¬((27#5).toNat ≤ 26) ∧
      6 ≤ (6#3).toNat := by decide

theorem witness_BufRdReadsElement :
    WellFormed.bufferLength 1 ≤ (8#5).toNat ∧ WellFormed.bufferLength 5 ≤ (26#5).toNat ∧
      WellFormed.bufferLength 6 ≤ (0#5).toNat := by decide

theorem witness_RsCfgSelects : (3#8).toNat ≤ 3 ∧ ¬(4#8).toNat ≤ 3 := by decide

/-- g itself is a codeword (R156). -/
theorem witness_EncodedWordIsCodeword :
    IsCodeword (withProfile .p2).st.psel (wordWith [(0, 12), (1, 24), (2, 15), (3, 16), (4, 1)]) := by
  unfold IsCodeword
  decide +kernel

/-- A codeword with an error of weight t, and with none; for SyndromesAreLinear too. -/
theorem witness_RsDecCorrectsUpToT :
    let c := wordWith [(0, 12), (1, 24), (2, 15), (3, 16), (4, 1)]
    let e := wordWith [(3, 23), (17, 14)]
    let s : State := { withProfile .p2 with cw := wordAdd c e }
    let s0 : State := { withProfile .p2 with cw := wordAdd c (wordWith []) }
    IsCodeword s.st.psel c ∧ s.cw = wordAdd c e ∧ weight e = s.st.psel.t ∧
      IsCodeword s0.st.psel c ∧ s0.cw = wordAdd c (wordWith []) ∧ weight (wordWith []) = 0 := by
  refine ⟨witness_EncodedWordIsCodeword, rfl, ?_, witness_EncodedWordIsCodeword, rfl, ?_⟩ <;> decide +kernel

/-- RS.CHIEN with the count of roots at ST.LEN, and away from it. -/
theorem witness_RsChienFindsRoots :
    answer (exec .rsChien located) = [0x00000002#32] ∧ answer (exec .rsChien State.reset) = [0x5000001A#32] := by
  decide +kernel

/-- RS.BM with L = t, and with L = t + 1. -/
theorem witness_RsBmResult :
    answer (exec .rsBm { State.reset with syn := #v[3, 9, 0, 0, 0, 0, 0, 0] }) = [0x00000001#32] ∧
      answer (exec .rsBm { State.reset with syn := #v[0, 5, 0, 0, 0, 0, 0, 0] }) = [0x50000002#32] := by
  decide +kernel

/-- A register of length r generates any r syndromes, so the premise of minimality is met. -/
theorem witness_RsBmFindsShortestRegister :
    Annihilates 2 #v[3, 9, 0, 0, 0, 0, 0, 0] (fun i => if i = 0 then 1 else 0) 2 := by
  refine ⟨by decide, fun n h1 h2 => ?_⟩
  omega

/-- A position with LOC = 1 and a zero denominator, and positions without. -/
theorem witness_RsForneyCorrects :
    (∃ pos : Fin 26, (locWith [0])[pos] = true ∧
      polyEval (printedDerivative (State.reset.sig)) (inverseLocator pos.val) = 0) ∧
      ¬∃ pos : Fin 26, located.loc[pos] = true ∧
        polyEval (printedDerivative located.sig) (inverseLocator pos.val) = 0 := by decide +kernel

theorem witness_CrcTritSteps : (2#2).toNat ≤ 2 ∧ ¬(3#2).toNat ≤ 2 := by decide

theorem witness_CrcIsLinear : ([1, 2, 0] : List Trit).length = ([2, 2, 1] : List Trit).length := by decide

theorem witness_CrcDetectsSingleTrit : (0 : Trit) ≠ 2 := by decide

theorem witness_PixLdAndRd : (edges.px[(0 : Fin 2)]).InRange ∧ (edges.px[(1 : Fin 2)]).InRange := by decide

theorem witness_PixPackLayouts :
    edges.px = #v[⟨0, -40, 40⟩, ⟨242, 40, -40⟩] ∧ Pixel.InRange ⟨0, -40, 40⟩ ∧ Pixel.InRange ⟨242, 40, -40⟩ := by decide

theorem witness_PixelPackingReverses :
    ({ State.reset with w := #v[26, 26, 26, 26, 26, 26, 26, 26, 8] } : State).trit 26 = 0 ∧
      ∀ i < 27, 13 ≤ i → ({ State.reset with w := #v[26, 26, 26, 26, 2, 0, 0, 0, 0] } : State).trit i = 0 := by decide

/-- The trits −1, 0, +1, −1 of −19, and those of the ends −40 and 40. -/
theorem witness_ChromaTritsAreBalanced :
    (∀ i : Fin 4, -1 ≤ (![-1, 0, 1, -1] : Fin 4 → Int) i ∧ (![-1, 0, 1, -1] : Fin 4 → Int) i ≤ 1) ∧
      ({ State.reset with px := #v[⟨0, -19, -40⟩, ⟨242, 40, -40⟩] } : State).px = #v[⟨0, -19, -40⟩, ⟨242, 40, -40⟩] ∧
      Pixel.InRange ⟨0, -19, -40⟩ ∧ Pixel.InRange ⟨242, 40, -40⟩ ∧
      (-19 : Int) = -1 + 3 * 0 + 9 * 1 + 27 * (-1) ∧ (-40 : Int) = -1 + 3 * (-1) + 9 * (-1) + 27 * (-1) ∧
      (40 : Int) = 1 + 3 * 1 + 9 * 1 + 27 * 1 := by decide

end Sys2Proof.Tests
end

section
/-! PROOFS. The scope of the machine (spec/00_scope.md): what one step does, why no run stops, and why a run over two
lists of command words is the one run after the other.

The key fact is `exec_answersOnce`: every command, with any operands and from any state, gives a next state with exactly
one more response, and neither reads nor writes the pending events. Runs of command words then fold by induction on the
list of words (`run_words`), with whatever is pending behind them left as it was. -/

namespace Sys2Proof.Machine

/-! ### The pending events as a part of the state no command touches -/

/-- `s` with other events pending and nothing else changed. -/
def State.withPending (s : State) (p : List HostEvent) : State := { s with pending := p }

theorem memRead_withPending (s : State) (p : List HostEvent) (b : BufId) (i : Nat) :
    (s.withPending p).memRead b i = s.memRead b i := by cases b <;> rfl

theorem memWrite_withPending (s : State) (p : List HostEvent) (b : BufId) (i : Nat) (v : Sym) :
    (s.withPending p).memWrite b i v = (s.memWrite b i v).withPending p := by cases b <;> rfl

/-- The stage's end with other events pending. -/
def StageEnd.withPending (e : StageEnd) (p : List HostEvent) : StageEnd := { e with state := e.state.withPending p }

@[simp] theorem stageEnd_withPending_state (e : StageEnd) (p : List HostEvent) :
    (e.withPending p).state = e.state.withPending p := rfl
@[simp] theorem stageEnd_withPending_uncorrectable (e : StageEnd) (p : List HostEvent) :
    (e.withPending p).uncorrectable = e.uncorrectable := rfl
@[simp] theorem finish_withPending (e : StageEnd) (p : List HostEvent) :
    (e.withPending p).finish = e.finish.withPending p := rfl

theorem synStage_withPending (s : State) (p : List HostEvent) :
    synStage (s.withPending p) = (synStage s).withPending p := rfl

theorem bmStage_withPending (s : State) (p : List HostEvent) :
    bmStage (s.withPending p) = (bmStage s).withPending p := rfl

theorem chienStage_withPending (s : State) (p : List HostEvent) :
    chienStage (s.withPending p) = (chienStage s).withPending p := by
  simp only [chienStage, StageEnd.withPending, State.withPending]

theorem forneyStage_withPending (s : State) (p : List HostEvent) :
    forneyStage (s.withPending p) = (forneyStage s).withPending p := rfl

theorem finish_responses (e : StageEnd) :
    e.finish.responses = e.state.responses ++ [responseWord (outcomeCode e.uncorrectable) e.data] := rfl

/-- RS.DEC gives one response, wherever it ends. -/
theorem decodeWord_responses (s : State) :
    ∃ c d, (decodeWord s).responses = s.responses ++ [responseWord c d] := by
  obtain ⟨-, h⟩ | ⟨-, -, h⟩ | ⟨-, -, -, h⟩ | ⟨-, -, -, h⟩ := decodeWord_cases s <;> rw [h]
  · exact ⟨_, _, rfl⟩
  · exact ⟨_, _, by rw [finish_responses, bmStage_responses, synStage_responses]⟩
  · exact ⟨_, _, by rw [finish_responses, chienStage_responses, bmStage_responses, synStage_responses]⟩
  · exact ⟨_, _, by
      rw [finish_responses, forneyStage_responses, chienStage_responses, bmStage_responses, synStage_responses]⟩

theorem decodeWord_withPending (s : State) (p : List HostEvent) :
    decodeWord (s.withPending p) = (decodeWord s).withPending p := by
  have hsz : ((synStage s).withPending p).st.sz = (synStage s).st.sz := rfl
  simp only [decodeWord, synStage_withPending, bmStage_withPending, chienStage_withPending, forneyStage_withPending,
    stageEnd_withPending_state, stageEnd_withPending_uncorrectable, finish_withPending, hsz]
  split_ifs <;> rfl

/-! ### Every command answers once -/

/-- From `s`, the meaning `m` gives a next state with exactly one more response (R7, R75), and does the same whatever
is pending, which it leaves as it was. -/
def AnswersOnce (m : State → Result) (s : State) : Prop :=
  ∃ t c d, m s = .next t ∧ t.responses = s.responses ++ [responseWord c d] ∧
    ∀ p, m (s.withPending p) = .next (t.withPending p)

/-- The form of every way a command ends: a state with the same responses, then its own response. -/
theorem AnswersOnce.of_respond {m : State → Result} {s u : State} {c : ResultCode} {d : Data}
    (hm : m s = .next (u.respond c d)) (hr : u.responses = s.responses)
    (hp : ∀ p, m (s.withPending p) = .next ((u.withPending p).respond c d)) : AnswersOnce m s :=
  ⟨u.respond c d, c, d, hm, by rw [respond_responses, hr], hp⟩

theorem AnswersOnce.of_raise {m : State → Result} {s : State} {f : ResultCode}
    (hm : ∀ u : State, m u = .next (u.raise f)) : AnswersOnce m s :=
  .of_respond (hm s) rfl fun p => hm (s.withPending p)

theorem fieldOp_answersOnce (op : Sym → Sym → Sym) (a b : BitVec 5) (s : State) : AnswersOnce (fieldOp op a b) s := by
  unfold fieldOp
  cases symOperand a with
  | none => exact .of_raise fun _ => rfl
  | some x =>
    cases symOperand b with
    | none => exact .of_raise fun _ => rfl
    | some y => exact .of_respond rfl rfl fun _ => rfl

theorem execGfInv_answersOnce (a : BitVec 5) (s : State) : AnswersOnce (execGfInv a) s := by
  unfold execGfInv
  cases symOperand a with
  | none => exact .of_raise fun _ => rfl
  | some x => exact .of_respond rfl rfl fun _ => rfl

theorem execPack243_answersOnce (k : BitVec 3) (t : Vector (BitVec 2) 5) (s : State) :
    AnswersOnce (execPack243 k t) s := by
  unfold execPack243
  cases countOperand k with
  | none => exact .of_raise fun _ => rfl
  | some n =>
    dsimp only
    cases groupOperand n t with
    | none => exact .of_raise fun _ => rfl
    | some ts => exact .of_respond rfl rfl fun _ => rfl

theorem execUnpk243_answersOnce (k : BitVec 3) (byte : BitVec 8) (s : State) :
    AnswersOnce (execUnpk243 k byte) s := by
  unfold execUnpk243
  cases countOperand k with
  | none => exact .of_raise fun _ => rfl
  | some n =>
    by_cases h : 3 ^ n ≤ byte.toNat
    · exact .of_raise fun _ => if_pos h
    · exact .of_respond (if_neg h) rfl fun _ => if_neg h

theorem execBufWr_answersOnce (buf : BitVec 3) (idx sym : BitVec 5) (s : State) :
    AnswersOnce (execBufWr buf idx sym) s := by
  unfold execBufWr
  cases addressOperand buf idx with
  | none => exact .of_raise fun _ => rfl
  | some address =>
    obtain ⟨b, i⟩ := address
    dsimp only
    cases elementOperand b sym with
    | none => exact .of_raise fun _ => rfl
    | some v =>
      exact .of_respond rfl (memWrite_responses s b i v) fun p => by rw [← memWrite_withPending]

theorem execBufRd_answersOnce (buf : BitVec 3) (idx : BitVec 5) (s : State) : AnswersOnce (execBufRd buf idx) s := by
  unfold execBufRd
  cases addressOperand buf idx with
  | none => exact .of_raise fun _ => rfl
  | some address =>
    obtain ⟨b, i⟩ := address
    exact .of_respond rfl rfl fun p => by dsimp only; rw [memRead_withPending]

theorem execRsCfg_answersOnce (p : BitVec 8) (s : State) : AnswersOnce (execRsCfg p) s := by
  unfold execRsCfg
  cases profileOperand p with
  | none => exact .of_raise fun _ => rfl
  | some q => exact .of_respond rfl rfl fun _ => rfl

theorem execCrcTrit_answersOnce (t : BitVec 2) (s : State) : AnswersOnce (execCrcTrit t) s := by
  unfold execCrcTrit
  cases tritOperand t with
  | none => exact .of_raise fun _ => rfl
  | some d => exact .of_respond rfl rfl fun _ => rfl

theorem execCrcSym_answersOnce (a : BitVec 5) (s : State) : AnswersOnce (execCrcSym a) s := by
  unfold execCrcSym
  cases symOperand a with
  | none => exact .of_raise fun _ => rfl
  | some x => exact .of_respond rfl rfl fun _ => rfl

/-- A decoder stage answers once, whether the word is uncorrectable or not. -/
theorem stage_answersOnce {stage : State → StageEnd} {s : State} (hr : (stage s).state.responses = s.responses)
    (hp : ∀ p, stage (s.withPending p) = (stage s).withPending p) :
    AnswersOnce (fun u => .next (stage u).finish) s :=
  ⟨(stage s).finish, _, _, rfl, by rw [finish_responses, hr], fun p => by simp only [hp, finish_withPending]⟩

theorem execRsDec_answersOnce (s : State) : AnswersOnce execRsDec s := by
  obtain ⟨c, d, h⟩ := decodeWord_responses s
  exact ⟨decodeWord s, c, d, rfl, h, fun p => by rw [execRsDec, decodeWord_withPending]⟩

/-- R7, R75, R264: every command, with any operand fields and from any state, answers once. -/
theorem exec_answersOnce (i : Instr) (s : State) : AnswersOnce (exec i) s := by
  cases i with
  | nop | statRd | statClr | reset | tritB2u | tritU2b | gfPowa | rsEnc | rsSyn | crcInit | crcFin
  | crcRd | pixLd | pixRd | pixPack2 | pixPack1 | pixUnpk2 | pixUnpk1 => exact .of_respond rfl rfl fun _ => rfl
  | pack243 k t => exact execPack243_answersOnce k t s
  | unpk243 k byte => exact execUnpk243_answersOnce k byte s
  | gfAdd a b => exact fieldOp_answersOnce Machine.gfAdd a b s
  | gfSub a b => exact fieldOp_answersOnce Machine.gfSub a b s
  | gfMul a b => exact fieldOp_answersOnce Machine.gfMul a b s
  | gfInv a => exact execGfInv_answersOnce a s
  | bufWr buf idx sym => exact execBufWr_answersOnce buf idx sym s
  | bufRd buf idx => exact execBufRd_answersOnce buf idx s
  | rsCfg p => exact execRsCfg_answersOnce p s
  | rsBm => exact stage_answersOnce (bmStage_responses s) (bmStage_withPending s)
  | rsChien => exact stage_answersOnce (chienStage_responses s) (chienStage_withPending s)
  | rsForney => exact stage_answersOnce (forneyStage_responses s) (forneyStage_withPending s)
  | rsDec => exact execRsDec_answersOnce s
  | crcTrit t => exact execCrcTrit_answersOnce t s
  | crcSym a => exact execCrcSym_answersOnce a s

/-- R7, R75, R79: so does every command word, the ones that decode to no command included. -/
theorem runWord_answersOnce (w : Word) (s : State) : AnswersOnce (runWord w) s := by
  cases h : decode w with
  | ok i =>
    have hexec : runWord w = exec i := funext (runWord_of_ok h)
    exact hexec ▸ exec_answersOnce i s
  | error e => exact .of_raise (runWord_of_error h)

/-! ### One step -/

theorem step_of_idle {s : State} (h : s.pending = []) : step s = .next s := by
  simp [step, takeEvent, h]

theorem step_of_hardwareReset {s : State} {rest : List HostEvent} (h : s.pending = .hardwareReset :: rest) :
    step s = .next (s.withPending rest).toReset := by
  simp [step, takeEvent, h, runEvent, State.withPending]

theorem step_of_command {s : State} {w : Word} {rest : List HostEvent} (h : s.pending = .command w :: rest) :
    step s = runWord w (s.withPending rest) := by
  simp [step, takeEvent, h, runEvent, State.withPending]

/-- R264: no step stops. -/
theorem exists_step_eq_next (s : State) : ∃ t, step s = .next t := by
  obtain ⟨-, h⟩ | ⟨rest, -, h⟩ | ⟨w, rest, -, h⟩ := step_cases s
  · exact ⟨_, h⟩
  · exact ⟨_, h⟩
  · obtain ⟨t, _, _, ht, -, -⟩ := runWord_answersOnce w { s with pending := rest }
    exact ⟨t, h.trans ht⟩

/-! ### Runs -/

theorem run_succ_of_step {s t : State} (h : step s = .next t) (k : Nat) :
    Sys2Proof.core.run (k + 1) s = Sys2Proof.core.run k t := by
  have hcore : Sys2Proof.core.step s = .next t := h
  simp only [Host.Core.run, hcore]

/-- A run of m + n steps is the run of m steps and then the run of n. -/
theorem run_add {m : Nat} {s t : State} (h : Sys2Proof.core.run m s = .next t) (n : Nat) :
    Sys2Proof.core.run (m + n) s = Sys2Proof.core.run n t := by
  induction m generalizing s with
  | zero =>
    cases h
    rw [Nat.zero_add]
  | succ m ih =>
    obtain ⟨u, hu⟩ := exists_step_eq_next s
    rw [run_succ_of_step hu] at h
    rw [Nat.add_right_comm, run_succ_of_step hu, ih h]

/-- R7, R59, R75: running command words takes them all, answers each once and in order, and leaves what is pending
behind them, on which nothing depends. -/
theorem run_words (ws : List Word) (s : State) :
    ∃ (t : State) (rs : List Word), t.responses = s.responses ++ rs ∧ rs.length = ws.length ∧
      ∀ p, Sys2Proof.core.run ws.length (s.withPending (ws.map HostEvent.command ++ p)) = .next (t.withPending p) := by
  induction ws generalizing s with
  | nil => exact ⟨s, [], (List.append_nil _).symm, rfl, fun _ => rfl⟩
  | cons w ws ih =>
    obtain ⟨u, c, d, -, hu, hrun⟩ := runWord_answersOnce w s
    obtain ⟨t, rs, ht, hlen, hruns⟩ := ih u
    refine ⟨t, responseWord c d :: rs, by rw [ht, hu, List.append_assoc, List.singleton_append], by simp [hlen],
      fun p => ?_⟩
    have hstep : step (s.withPending ((w :: ws).map HostEvent.command ++ p)) =
        .next (u.withPending (ws.map HostEvent.command ++ p)) := (step_of_command rfl).trans (hrun _)
    exact (run_succ_of_step hstep _).trans (hruns p)

theorem present_of_idle {s : State} (h : s.pending = []) (ws : List Word) :
    s.present ws = s.withPending (ws.map HostEvent.command) := by
  rw [State.present, h, List.nil_append, State.withPending]

/-! ### The statements -/

/-- Settles O9, by induction on the number of steps. -/
theorem everyRunGoesOn : Obligations.EveryRunGoesOn := by
  intro k
  induction k with
  | zero => exact fun s => ⟨s, rfl⟩
  | succ k ih =>
    intro s
    obtain ⟨t, ht⟩ := exists_step_eq_next s
    obtain ⟨u, hu⟩ := ih t
    exact ⟨u, (run_succ_of_step ht k).trans hu⟩

/-- Settles O10: the run over `ws ++ vs` is the run over `ws` with the words of `vs` behind them, which the first run
leaves pending for the second. -/
theorem runsFoldAndAnswerInOrder : Obligations.RunsFoldAndAnswerInOrder := by
  intro ws vs s hs
  obtain ⟨t, rs, ht, hrs, hruns⟩ := run_words ws s
  obtain ⟨u, qs, hu, hqs, hrunt⟩ := run_words vs t
  have hpresent : (t.withPending []).present vs = t.withPending (vs.map HostEvent.command) := present_of_idle rfl vs
  have hfirst : Sys2Proof.core.run ws.length (s.present ws) = .next (t.withPending []) := by
    simpa [present_of_idle hs] using hruns []
  have hsecond : Sys2Proof.core.run vs.length (t.withPending (vs.map HostEvent.command)) =
      .next (u.withPending []) := by
    simpa using hrunt []
  have hboth : Sys2Proof.core.run ws.length (s.present (ws ++ vs)) =
      .next (t.withPending (vs.map HostEvent.command)) := by
    rw [present_of_idle hs, List.map_append]
    exact hruns _
  exact ⟨t.withPending [], u.withPending [], rs, qs, hfirst, hpresent ▸ hsecond,
    (run_add hboth vs.length).trans hsecond, rfl, rfl, ht, hrs, hu, hqs⟩

/-- Settles O7. -/
theorem stepRunsDecodedCommand : Obligations.StepRunsDecodedCommand := by
  refine ⟨fun s w rest h => ⟨fun i hi => ?_, fun e he => ?_⟩, fun s w => ?_⟩
  · exact (step_of_command h).trans (runWord_of_ok hi _)
  · calc step s = .next (State.raise (s.withPending rest) .illegalCommand) :=
          (step_of_command h).trans (runWord_of_error he _)
      _ = .next (State.faulted { s with pending := rest } .illegalCommand 0x10000000#32) := by
          rw [raise_eq_faulted _ (by decide)]; rfl
  · rw [State.withFetchWord, tableWord_toNat]
    exact step_of_command rfl

/-- Settles O8. -/
theorem stepIdlesAndResets : Obligations.StepIdlesAndResets :=
  fun _ => ⟨step_of_idle, fun _ => step_of_hardwareReset⟩

end Sys2Proof.Machine
end

section
/-! PROOFS. The state of the machine (spec/10_state.md): which parts of it each command may change, what becomes of the
status fields, and the invariant that every step keeps.

The key fact is `exec_ends`: every command reaches a state that differs from the one before only in the parts it is
listed to write, and responds from there; a fault reaches no new state. A statement about one status field is then the
frame for the commands that do not write it (`exec_same`) and one fact for each command that does. -/

namespace Sys2Proof.Machine

/-! ### Parts that stay the same -/

theorem Part.same_refl (s : State) (p : Part) : p.same s s := by cases p <;> rfl

theorem Part.same_trans {s t u : State} {p : Part} (hst : p.same s t) (htu : p.same t u) : p.same s u := by
  cases p <;> exact Eq.trans htu hst

/-- Every part but the listed ones is the same in both states. -/
def SameExcept (ps : List Part) (s t : State) : Prop := ∀ p, p ∉ ps → p.same s t

theorem SameExcept.refl (ps : List Part) (s : State) : SameExcept ps s s := fun p _ => p.same_refl s

theorem SameExcept.trans {ps qs : List Part} {s t u : State} (hst : SameExcept ps s t) (htu : SameExcept qs t u) :
    SameExcept (ps ++ qs) s u := fun p hp =>
  Part.same_trans (hst p fun h => hp (List.mem_append_left _ h)) (htu p fun h => hp (List.mem_append_right _ h))

theorem SameExcept.mono {ps qs : List Part} {s t : State} (h : SameExcept ps s t) (hsub : ps ⊆ qs) :
    SameExcept qs s t := fun p hp => h p fun hps => hp (hsub hps)

/-- `SameExcept`, part by part: the form in which the updates of the state are checked. -/
theorem sameExcept_iff {ps : List Part} {s t : State} :
    SameExcept ps s t ↔
      (.px ∈ ps ∨ t.px = s.px) ∧ (.cw ∈ ps ∨ t.cw = s.cw) ∧ (.syn ∈ ps ∨ t.syn = s.syn) ∧
      (.sig ∈ ps ∨ t.sig = s.sig) ∧ (.omg ∈ ps ∨ t.omg = s.omg) ∧ (.w ∈ ps ∨ t.w = s.w) ∧
      (.loc ∈ ps ∨ t.loc = s.loc) ∧ (.crc ∈ ps ∨ t.crc = s.crc) ∧ (.psel ∈ ps ∨ t.st.psel = s.st.psel) ∧
      (.sz ∈ ps ∨ t.st.sz = s.st.sz) ∧ (.unc ∈ ps ∨ t.st.unc = s.st.unc) ∧
      (.inv0 ∈ ps ∨ t.st.inv0 = s.st.inv0) ∧ (.len ∈ ps ∨ t.st.len = s.st.len) ∧
      (.nroot ∈ ps ∨ t.st.nroot = s.st.nroot) := by
  have hpart (p : Part) : (p ∉ ps → p.same s t) ↔ p ∈ ps ∨ p.same s t := or_iff_not_imp_left.symm
  constructor
  · intro h
    simp only [SameExcept, hpart] at h
    exact ⟨h .px, h .cw, h .syn, h .sig, h .omg, h .w, h .loc, h .crc, h .psel, h .sz, h .unc, h .inv0, h .len,
      h .nroot⟩
  · rintro ⟨hpx, hcw, hsyn, hsig, homg, hw, hloc, hcrc, hpsel, hsz, hunc, hinv0, hlen, hnroot⟩ p
    rw [hpart]
    cases p <;> assumption

/-- A response writes none of the parts: ST.LASTERR and the list of responses are apart. -/
theorem respond_sameExcept (s : State) (c : ResultCode) (d : Data) : SameExcept [] s (s.respond c d) := by
  simp [sameExcept_iff]

/-! ### What each update of the state writes -/

theorem acknowledge_sameExcept (s : State) : SameExcept [.inv0] s s.acknowledge := by simp [sameExcept_iff]

theorem writePx_sameExcept (s : State) (n : Fin 2) (x : Pixel) : SameExcept [.px] s (s.writePx n x) := by
  simp [sameExcept_iff]

/-- The part of the state that is the buffer. -/
def BufId.part : BufId → Part
  | .cw => .cw
  | .syn => .syn
  | .sig => .sig
  | .omg => .omg
  | .w => .w
  | .loc => .loc

theorem bufferParts_of_bufOperand {buf : BitVec 3} {b : BufId} (h : bufOperand buf = some b) :
    bufferParts buf = [b.part] := by
  revert buf
  cases b <;> decide

/-- BUF.WR can write a buffer only. -/
@[simp] theorem not_mem_bufferParts {p : Part} (buf : BitVec 3)
    (hp : p ∉ [Part.cw, .syn, .sig, .omg, .w, .loc]) : p ∉ bufferParts buf := by
  have hsub : ∀ buf : BitVec 3, bufferParts buf ⊆ [Part.cw, .syn, .sig, .omg, .w, .loc] := by decide
  exact fun h => hp (hsub buf h)

theorem memWrite_sameExcept (s : State) (b : BufId) (i : Nat) (v : Sym) :
    SameExcept [b.part] s (s.memWrite b i v) := by
  cases b <;> simp [sameExcept_iff, BufId.part, State.memWrite]

theorem synStage_sameExcept (s : State) : SameExcept [.syn, .sz, .unc] s (synStage s) := by simp [sameExcept_iff]

theorem bmStage_sameExcept (s : State) : SameExcept [.sig, .len, .unc] s (bmStage s).state := by simp [sameExcept_iff]

theorem chienStage_sameExcept (s : State) : SameExcept [.loc, .nroot, .unc] s (chienStage s).state := by
  simp [sameExcept_iff]

theorem forneyStage_sameExcept (s : State) : SameExcept [.omg, .cw, .unc] s (forneyStage s).state := by
  simp [sameExcept_iff]

theorem withInverted_sameExcept (s : State) (x : Sym) :
    SameExcept [.inv0] s { s with st := s.st.withInverted x } := by simp [sameExcept_iff, Status.withInverted]

theorem psel_sameExcept (s : State) (q : Profile) : SameExcept [.psel] s { s with st := { s.st with psel := q } } := by
  simp [sameExcept_iff]

theorem crc_sameExcept (s : State) (reg : Vector Trit 12) : SameExcept [.crc] s { s with crc := reg } := by
  simp [sameExcept_iff]

theorem w_sameExcept (s : State) (w : Vector Sym 9) : SameExcept [.w] s { s with w := w } := by simp [sameExcept_iff]

theorem cw_sameExcept (s : State) (cw : Vector Sym 26) : SameExcept [.cw] s { s with cw := cw } := by
  simp [sameExcept_iff]

theorem toReset_sameExcept (s : State) : SameExcept (writes .reset) s s.toReset := by simp [sameExcept_iff, writes]

/-! ### Where RS.DEC ends -/

/-- The states in which RS.DEC from `s` can give its response: after any of its four stages (R181). -/
inductive DecodeReaches (s : State) : State → Prop
  | syn : DecodeReaches s (synStage s)
  | bm : DecodeReaches s (bmStage (synStage s)).state
  | chien : DecodeReaches s (chienStage (bmStage (synStage s)).state).state
  | forney : DecodeReaches s (forneyStage (chienStage (bmStage (synStage s)).state).state).state

/-- RS.DEC gives its response after one of its stages, with ST.UNC saying whether the word is uncorrectable: RS.SYN has
cleared it, and every stage before the last has ended well (R32, R181). -/
theorem decodeWord_reaches (s : State) :
    ∃ u d, decodeWord s = u.respond (outcomeCode u.st.unc) d ∧ DecodeReaches s u := by
  obtain ⟨-, h⟩ | ⟨-, h2, h⟩ | ⟨-, h2, h3, h⟩ | ⟨-, h2, h3, h⟩ := decodeWord_cases s
  · exact ⟨_, _, h, .syn⟩
  · exact ⟨_, _, by rw [h, StageEnd.finish, bmStage_st_unc, synStage_st_unc, Bool.or_false], .bm⟩
  · exact ⟨_, _, by
      rw [h, StageEnd.finish, chienStage_st_unc, bmStage_st_unc, synStage_st_unc, h2, Bool.or_false, Bool.or_false],
      .chien⟩
  · exact ⟨_, _, by
      rw [h, StageEnd.finish, forneyStage_st_unc, chienStage_st_unc, bmStage_st_unc, synStage_st_unc, h2, h3,
        Bool.or_false, Bool.or_false, Bool.or_false],
      .forney⟩

namespace DecodeReaches

variable {s u : State}

theorem responses_eq (h : DecodeReaches s u) : u.responses = s.responses := by cases h <;> simp

theorem lasterr_eq (h : DecodeReaches s u) : u.st.lasterr = s.st.lasterr := by cases h <;> simp

/-- Only the first stage writes ST.SZ. -/
theorem sz_eq (h : DecodeReaches s u) : u.st.sz = (synStage s).st.sz := by cases h <;> simp

theorem sameExcept (h : DecodeReaches s u) : SameExcept (writes .rsDec) s u := by
  have hsyn := synStage_sameExcept s
  have hbm := hsyn.trans (bmStage_sameExcept _)
  have hchien := hbm.trans (chienStage_sameExcept _)
  have hforney := hchien.trans (forneyStage_sameExcept _)
  cases h with
  | syn => exact hsyn.mono (by decide)
  | bm => exact hbm.mono (by decide)
  | chien => exact hchien.mono (by decide)
  | forney => exact hforney.mono (by decide)

end DecodeReaches

/-! ### The commands that check an operand -/

theorem fieldOp_answers (op : Sym → Sym → Sym) (a b : BitVec 5) (s : State) :
    ∃ c d, fieldOp op a b s = .next (s.respond c d) := by
  unfold fieldOp
  cases symOperand a with
  | none => exact ⟨_, _, rfl⟩
  | some x => cases symOperand b <;> exact ⟨_, _, rfl⟩

theorem execPack243_answers (k : BitVec 3) (t : Vector (BitVec 2) 5) (s : State) :
    ∃ c d, execPack243 k t s = .next (s.respond c d) := by
  unfold execPack243
  cases countOperand k with
  | none => exact ⟨_, _, rfl⟩
  | some n =>
    dsimp only
    cases groupOperand n t <;> exact ⟨_, _, rfl⟩

theorem execUnpk243_answers (k : BitVec 3) (byte : BitVec 8) (s : State) :
    ∃ c d, execUnpk243 k byte s = .next (s.respond c d) := by
  unfold execUnpk243
  cases countOperand k with
  | none => exact ⟨_, _, rfl⟩
  | some n =>
    by_cases h : 3 ^ n ≤ byte.toNat
    · exact ⟨_, _, if_pos h⟩
    · exact ⟨_, _, if_neg h⟩

theorem execBufRd_answers (buf : BitVec 3) (idx : BitVec 5) (s : State) :
    ∃ c d, execBufRd buf idx s = .next (s.respond c d) := by
  unfold execBufRd
  cases addressOperand buf idx <;> exact ⟨_, _, rfl⟩

theorem execGfInv_of_none {a : BitVec 5} (h : symOperand a = none) (s : State) :
    execGfInv a s = .next (s.raise .badOperand) := by simp [execGfInv, h]

theorem execGfInv_of_some {a : BitVec 5} {x : Sym} (h : symOperand a = some x) (s : State) :
    execGfInv a s = .next (State.respond { s with st := s.st.withInverted x } .ok (symData (gfInv x))) := by
  simp [execGfInv, h]

theorem execRsCfg_of_none {p : BitVec 8} (h : profileOperand p = none) (s : State) :
    execRsCfg p s = .next (s.raise .invalidProfile) := by simp [execRsCfg, h]

theorem execRsCfg_of_some {p : BitVec 8} {q : Profile} (h : profileOperand p = some q) (s : State) :
    execRsCfg p s = .next (State.respond { s with st := { s.st with psel := q } } .ok 0) := by simp [execRsCfg, h]

theorem execCrcTrit_of_none {t : BitVec 2} (h : tritOperand t = none) (s : State) :
    execCrcTrit t s = .next (s.raise .badOperand) := by simp [execCrcTrit, h]

theorem execCrcTrit_of_some {t : BitVec 2} {d : Trit} (h : tritOperand t = some d) (s : State) :
    execCrcTrit t s = .next (State.respond { s with crc := crcFeed s.crc [d] } .ok 0) := by simp [execCrcTrit, h]

theorem execCrcSym_of_none {a : BitVec 5} (h : symOperand a = none) (s : State) :
    execCrcSym a s = .next (s.raise .badOperand) := by simp [execCrcSym, h]

theorem execCrcSym_of_some {a : BitVec 5} {x : Sym} (h : symOperand a = some x) (s : State) :
    execCrcSym a s = .next (State.respond { s with crc := crcFeed s.crc [dig x 0, dig x 1, dig x 2] } .ok 0) := by
  simp [execCrcSym, h]

/-- BUF.WR refuses the address or the value, or writes the one element (R244). -/
theorem execBufWr_cases (buf : BitVec 3) (idx sym : BitVec 5) (s : State) :
    (∃ f, execBufWr buf idx sym s = .next (s.raise f)) ∨
    (∃ b i v, addressOperand buf idx = some (b, i) ∧
      execBufWr buf idx sym s = .next ((s.memWrite b i v).respond .ok 0)) := by
  unfold execBufWr
  cases addressOperand buf idx with
  | none => exact .inl ⟨_, rfl⟩
  | some address =>
    obtain ⟨b, i⟩ := address
    dsimp only
    cases elementOperand b sym with
    | none => exact .inl ⟨_, rfl⟩
    | some v => exact .inr ⟨b, i, v, rfl, rfl⟩

/-! ### How every command ends -/

/-- From `s` the command `i` reaches the state `u` and responds there with the code `c` and the data `d`: only the parts
the command may write differ (R20, R29), a fault has changed nothing (R262), and only STAT.CLR and RESET have touched
ST.LASTERR before the response (R34). -/
structure Ends (i : Instr) (s u : State) (c : ResultCode) (d : Data) : Prop where
  exec_eq : exec i s = .next (u.respond c d)
  responses_eq : u.responses = s.responses
  lasterr_eq : u.st.lasterr = if i = .statClr ∨ i = .reset then .ok else s.st.lasterr
  sameExcept : SameExcept (writes i) s u
  eq_of_isFault : c.isFault = true → u = s

/-- A command that only responds. -/
theorem Ends.of_answer {i : Instr} {s : State} {c : ResultCode} {d : Data}
    (h : exec i s = .next (s.respond c d)) (hi : ¬(i = .statClr ∨ i = .reset)) : Ends i s s c d :=
  ⟨h, rfl, (if_neg hi).symm, .refl _ _, fun _ => rfl⟩

theorem exists_ends_of_answers {i : Instr} {s : State} (h : ∃ c d, exec i s = .next (s.respond c d))
    (hi : ¬(i = .statClr ∨ i = .reset)) : ∃ u c d, Ends i s u c d := by
  obtain ⟨c, d, h⟩ := h
  exact ⟨s, c, d, .of_answer h hi⟩

/-- A command that changes the state and ends in no fault. -/
theorem Ends.of_update {i : Instr} {s u : State} {c : ResultCode} {d : Data}
    (h : exec i s = .next (u.respond c d)) (hc : c.isFault = false) (hi : ¬(i = .statClr ∨ i = .reset))
    (hr : u.responses = s.responses) (hl : u.st.lasterr = s.st.lasterr) (hs : SameExcept (writes i) s u) :
    Ends i s u c d :=
  ⟨h, hr, hl.trans (if_neg hi).symm, hs, fun hf => absurd hf (by simp [hc])⟩

theorem outcomeCode_isFault (uncorrectable : Bool) : (outcomeCode uncorrectable).isFault = false := by
  cases uncorrectable <;> rfl

/-- A decoder stage, whether the word is uncorrectable or not. -/
theorem Ends.of_stage {i : Instr} {s : State} {e : StageEnd} (h : exec i s = .next e.finish)
    (hi : ¬(i = .statClr ∨ i = .reset)) (hr : e.state.responses = s.responses)
    (hl : e.state.st.lasterr = s.st.lasterr) (hs : SameExcept (writes i) s e.state) :
    Ends i s e.state (outcomeCode e.uncorrectable) e.data :=
  .of_update h (outcomeCode_isFault _) hi hr hl hs

/-- R20, R29, R34, R262: every command ends so, with any operand fields and from any state. -/
theorem exec_ends (i : Instr) (s : State) : ∃ u c d, Ends i s u c d := by
  cases i with
  | nop | statRd | tritB2u | tritU2b | gfPowa | crcRd | pixRd => exact ⟨_, _, _, .of_answer rfl (by simp)⟩
  | pack243 => exact exists_ends_of_answers (execPack243_answers _ _ s) (by simp)
  | unpk243 => exact exists_ends_of_answers (execUnpk243_answers _ _ s) (by simp)
  | gfAdd | gfSub | gfMul => exact exists_ends_of_answers (fieldOp_answers _ _ _ s) (by simp)
  | bufRd => exact exists_ends_of_answers (execBufRd_answers _ _ s) (by simp)
  | statClr => exact ⟨s.acknowledge, .ok, 0, rfl, rfl, by simp, acknowledge_sameExcept s, nofun⟩
  | reset => exact ⟨s.toReset, .ok, 0, rfl, rfl, by simp [Status.reset], toReset_sameExcept s, nofun⟩
  | gfInv a =>
    cases h : symOperand a with
    | none => exact ⟨_, _, _, .of_answer (execGfInv_of_none h s) (by simp)⟩
    | some x =>
      exact ⟨_, _, _, .of_update (execGfInv_of_some h s) rfl (by simp) rfl rfl (withInverted_sameExcept s x)⟩
  | rsCfg p =>
    cases h : profileOperand p with
    | none => exact ⟨_, _, _, .of_answer (execRsCfg_of_none h s) (by simp)⟩
    | some q => exact ⟨_, _, _, .of_update (execRsCfg_of_some h s) rfl (by simp) rfl rfl (psel_sameExcept s q)⟩
  | crcTrit t =>
    cases h : tritOperand t with
    | none => exact ⟨_, _, _, .of_answer (execCrcTrit_of_none h s) (by simp)⟩
    | some d => exact ⟨_, _, _, .of_update (execCrcTrit_of_some h s) rfl (by simp) rfl rfl (crc_sameExcept s _)⟩
  | crcSym a =>
    cases h : symOperand a with
    | none => exact ⟨_, _, _, .of_answer (execCrcSym_of_none h s) (by simp)⟩
    | some x => exact ⟨_, _, _, .of_update (execCrcSym_of_some h s) rfl (by simp) rfl rfl (crc_sameExcept s _)⟩
  | bufWr buf idx sym =>
    obtain ⟨f, h⟩ | ⟨b, i, v, hb, h⟩ := execBufWr_cases buf idx sym s
    · exact ⟨_, _, _, .of_answer h (by simp)⟩
    · have hwrites : writes (.bufWr buf idx sym) = [b.part] :=
        bufferParts_of_bufOperand (addressOperand_eq_some.mp hb).1
      exact ⟨_, _, _, .of_update h rfl (by simp) (by simp) (by simp) (hwrites ▸ memWrite_sameExcept s b i v)⟩
  | rsEnc => exact ⟨_, _, _, .of_update rfl rfl (by simp) rfl rfl (cw_sameExcept s _)⟩
  | rsSyn => exact ⟨_, _, _, .of_update rfl rfl (by simp) rfl rfl (synStage_sameExcept s)⟩
  | rsBm => exact ⟨_, _, _, .of_stage rfl (by simp) rfl rfl (bmStage_sameExcept s)⟩
  | rsChien => exact ⟨_, _, _, .of_stage rfl (by simp) (by simp) (by simp) (chienStage_sameExcept s)⟩
  | rsForney => exact ⟨_, _, _, .of_stage rfl (by simp) rfl rfl (forneyStage_sameExcept s)⟩
  | rsDec =>
    obtain ⟨u, d, h, hu⟩ := decodeWord_reaches s
    exact ⟨_, _, _, .of_update (congrArg Host.Outcome.next h) (outcomeCode_isFault _) (by simp) hu.responses_eq
      hu.lasterr_eq hu.sameExcept⟩
  | crcInit | crcFin => exact ⟨_, _, _, .of_update rfl rfl (by simp) rfl rfl (crc_sameExcept s _)⟩
  | pixLd | pixUnpk1 => exact ⟨_, _, _, .of_update rfl rfl (by simp) rfl rfl (writePx_sameExcept s _ _)⟩
  | pixUnpk2 =>
    exact ⟨_, _, _, .of_update rfl rfl (by simp) rfl rfl
      (((writePx_sameExcept s _ _).trans (writePx_sameExcept _ _ _)).mono (by simp [writes]))⟩
  | pixPack2 | pixPack1 => exact ⟨_, _, _, .of_update rfl rfl (by simp) rfl rfl (w_sameExcept s _)⟩

/-! ### What a command does to the parts and to the port -/

/-- A command leaves every part it is not listed to write as it was. -/
theorem exec_same {i : Instr} {s t : State} {p : Part} (h : exec i s = .next t) (hp : p ∉ writes i) : p.same s t := by
  obtain ⟨u, c, d, he⟩ := exec_ends i s
  obtain rfl : u.respond c d = t := Host.Outcome.next.inj (he.exec_eq.symm.trans h)
  exact Part.same_trans (he.sameExcept p hp) (respond_sameExcept u c d p (by simp))

theorem exec_pending {i : Instr} {s t : State} (h : exec i s = .next t) : t.pending = s.pending := by
  obtain ⟨u, _, _, -, -, hp⟩ := exec_answersOnce i s
  have hu : t = u.withPending s.pending := Host.Outcome.next.inj (h.symm.trans (hp s.pending))
  rw [hu, State.withPending]

theorem exec_responses {i : Instr} {s t : State} (h : exec i s = .next t) :
    ∃ c d, t.responses = s.responses ++ [responseWord c d] := by
  obtain ⟨u, c, d, hu, hr, -⟩ := exec_answersOnce i s
  obtain rfl : u = t := Host.Outcome.next.inj (hu.symm.trans h)
  exact ⟨c, d, hr⟩

theorem exists_exec_eq_next (i : Instr) (s : State) : ∃ t, exec i s = .next t := by
  obtain ⟨t, -, -, ht, -, -⟩ := exec_answersOnce i s
  exact ⟨t, ht⟩

theorem responseCode_responseWord (c : ResultCode) (d : Data) : responseCode (responseWord c d) = c.code.toNat := by
  rw [responseCode, responseWord, BitVec.extractLsb'_append_eq_left]

theorem code_le (c : ResultCode) : c.code.toNat ≤ 5 := by cases c <;> decide

theorem responseCode_outcome (uncorrectable : Bool) (d : Data) :
    (responseCode (responseWord (outcomeCode uncorrectable) d) == 5) = uncorrectable := by
  rw [responseCode_responseWord]
  cases uncorrectable <;> rfl

theorem lastResponse_of_append {t : State} {rs : List Word} {w : Word} (h : t.responses = rs ++ [w]) :
    t.lastResponse = w := by
  simp [State.lastResponse, h]

theorem respond_lastResponse (s : State) (c : ResultCode) (d : Data) :
    (s.respond c d).lastResponse = responseWord c d := lastResponse_of_append rfl

/-- A stage sets ST.UNC exactly when its response says `RsUncorrectable`, and clears it never (R32, R263). -/
theorem finish_st_unc {e : StageEnd} {s : State} (h : e.state.st.unc = (e.uncorrectable || s.st.unc)) :
    e.finish.st.unc = (responseCode e.finish.lastResponse == 5 || s.st.unc) := by
  rw [StageEnd.finish, respond_lastResponse, responseCode_outcome, respond_st_unc, h]

/-- `decodeWord_reaches`, of the command. -/
theorem exec_rsDec_reaches {s t : State} (h : exec .rsDec s = .next t) :
    ∃ u d, t = u.respond (outcomeCode u.st.unc) d ∧ DecodeReaches s u := by
  obtain ⟨u, d, hd, hu⟩ := decodeWord_reaches s
  have ht : decodeWord s = t := Host.Outcome.next.inj h
  exact ⟨u, d, ht.symm.trans hd, hu⟩

/-! ### The pixel registers -/

/-- Both pixel registers hold quantized pixels (R22). -/
def PixelsInRange (px : Vector Pixel 2) : Prop := ∀ n : Fin 2, (px[n]).InRange

theorem saturate_inRange (p : Pixel) : p.saturate.InRange := by
  simp only [Pixel.InRange, Pixel.saturate, satY, satC, Config.yMax, Config.cMax]
  omega

theorem tritsValue_lt (ts : List Trit) : tritsValue ts < 3 ^ ts.length := by
  induction ts with
  | nil => simp [tritsValue]
  | cons t ts ih =>
    rw [tritsValue, List.length_cons, pow_succ]
    omega

theorem wordValue_nonneg (w : Vector Sym 9) (off n : Nat) : 0 ≤ wordValue w off n := Int.natCast_nonneg _

theorem wordValue_lt (w : Vector Sym 9) (off n : Nat) : wordValue w off n < 3 ^ n := by
  have h := tritsValue_lt ((List.range n).map fun i => wordTrit w (off + i))
  rw [List.length_map, List.length_range] at h
  rw [wordValue]
  exact_mod_cast h

theorem pixelAt_inRange (w : Vector Sym 9) (off : Nat) : (pixelAt w off).InRange := by
  have hy := wordValue_lt w off 5
  have hcb := wordValue_lt w (off + 5) 4
  have hcr := wordValue_lt w (off + 9) 4
  have hy0 := wordValue_nonneg w off 5
  have hcb0 := wordValue_nonneg w (off + 5) 4
  have hcr0 := wordValue_nonneg w (off + 9) 4
  simp only [Pixel.InRange, pixelAt, Config.cOffset]
  omega

theorem PixelsInRange.set {px : Vector Pixel 2} (h : PixelsInRange px) (k : Fin 2) {p : Pixel} (hp : p.InRange) :
    PixelsInRange (px.set k p) := by
  intro n
  by_cases hkn : k = n
  · subst hkn
    simpa using hp
  · have hne : k.val ≠ n.val := fun e => hkn (Fin.ext e)
    simpa [Vector.getElem_set, hne] using h n

theorem reset_pixelsInRange : PixelsInRange State.reset.px := by
  intro n
  simp [State.reset, Pixel.InRange]

/-- R22: every command keeps the ranges of the pixel registers. -/
theorem exec_pixelsInRange {i : Instr} {s t : State} (h : exec i s = .next t) (hs : PixelsInRange s.px) :
    PixelsInRange t.px := by
  cases i with
  | reset =>
    cases h
    exact reset_pixelsInRange
  | pixLd n y cb cr =>
    cases h
    exact hs.set _ (saturate_inRange _)
  | pixUnpk2 =>
    cases h
    exact (hs.set _ (pixelAt_inRange _ _)).set _ (pixelAt_inRange _ _)
  | pixUnpk1 =>
    cases h
    exact hs.set _ (pixelAt_inRange _ _)
  | _ =>
    have hpx : t.px = s.px := exec_same (p := .px) h (by simp [writes])
    rwa [hpx]

/-! ### ST.LEN and ST.NROOT -/

/-- After r rounds of R173 the register is no longer than r. -/
theorem berlekampMassey_len_le (r : Nat) (syn : Vector Sym 8) : (berlekampMassey r syn).len ≤ r := by
  induction r with
  | zero => exact Nat.le_refl 0
  | succ r ih =>
    have hlast : berlekampMassey (r + 1) syn = bmStep syn (berlekampMassey r syn) r := by
      simp [berlekampMassey, List.range_succ]
    rw [hlast]
    obtain ⟨-, h⟩ | ⟨-, -, h⟩ | ⟨-, -, h⟩ := bmStep_cases syn (berlekampMassey r syn) r
    all_goals
      rw [h]
      dsimp only
      omega

theorem bmStage_len_le (s : State) : (bmStage s).state.st.len ≤ 8 :=
  (berlekampMassey_len_le _ _).trans (profile_r_le _)

theorem DecodeReaches.len_le {s u : State} (h : DecodeReaches s u) (hs : s.st.len ≤ 8) : u.st.len ≤ 8 := by
  have hbm := bmStage_len_le (synStage s)
  cases h with
  | syn => exact hs
  | bm => exact hbm
  | chien => rwa [chienStage_st_len]
  | forney => rwa [forneyStage_st_len, chienStage_st_len]

theorem finish_st_nroot (e : StageEnd) : e.finish.st.nroot = e.state.st.nroot := rfl

theorem chienStage_nroot_le (s : State) : (chienStage s).state.st.nroot ≤ 26 := by
  rw [chienStage_st_nroot]
  exact rootCount_le _

theorem DecodeReaches.nroot_le {s u : State} (h : DecodeReaches s u) (hs : s.st.nroot ≤ 26) : u.st.nroot ≤ 26 := by
  have hchien := chienStage_nroot_le (bmStage (synStage s)).state
  cases h with
  | syn => exact hs
  | bm => exact hs
  | chien => exact hchien
  | forney => rwa [forneyStage_st_nroot]

/-- R35: every command keeps the range of ST.LEN. -/
theorem exec_len_le {i : Instr} {s t : State} (h : exec i s = .next t) (hs : s.st.len ≤ 8) : t.st.len ≤ 8 := by
  cases i with
  | reset =>
    cases h
    exact Nat.zero_le 8
  | rsBm =>
    cases h
    exact bmStage_len_le s
  | rsDec =>
    obtain ⟨u, d, rfl, hu⟩ := exec_rsDec_reaches h
    exact hu.len_le hs
  | _ =>
    have hlen : t.st.len = s.st.len := exec_same (p := .len) h (by simp [writes])
    rwa [hlen]

/-- R35: every command keeps the range of ST.NROOT. -/
theorem exec_nroot_le {i : Instr} {s t : State} (h : exec i s = .next t) (hs : s.st.nroot ≤ 26) :
    t.st.nroot ≤ 26 := by
  cases i with
  | reset =>
    cases h
    exact Nat.zero_le 26
  | rsChien =>
    obtain rfl : (chienStage s).finish = t := Host.Outcome.next.inj h
    exact (finish_st_nroot _).trans_le (chienStage_nroot_le s)
  | rsDec =>
    obtain ⟨u, d, rfl, hu⟩ := exec_rsDec_reaches h
    exact hu.nroot_le hs
  | _ =>
    have hnroot : t.st.nroot = s.st.nroot := exec_same (p := .nroot) h (by simp [writes])
    rwa [hnroot]

/-! ### The invariant -/

theorem codes_append {rs : List Word} (h : (rs.all fun w => responseCode w ≤ 5) = true) (c : ResultCode) (d : Data) :
    ((rs ++ [responseWord c d]).all fun w => responseCode w ≤ 5) = true := by
  simp [h, responseCode_responseWord, code_le]

/-- Every command keeps the invariant, range by range. -/
theorem exec_keeps_inv {i : Instr} {s t : State} (h : exec i s = .next t) (hs : s.Inv) : t.Inv := by
  obtain ⟨hpx, hlen, hnroot, hcodes⟩ := hs
  obtain ⟨c, d, hr⟩ := exec_responses h
  exact ⟨exec_pixelsInRange h hpx, exec_len_le h hlen, exec_nroot_le h hnroot, hr ▸ codes_append hcodes c d⟩

theorem raise_keeps_inv {s : State} (f : ResultCode) (hs : s.Inv) : (s.raise f).Inv := by
  obtain ⟨hpx, hlen, hnroot, hcodes⟩ := hs
  exact ⟨hpx, hlen, hnroot, codes_append hcodes f 0⟩

theorem toReset_keeps_inv {s : State} (hs : s.Inv) : s.toReset.Inv := by
  obtain ⟨-, -, -, hcodes⟩ := hs
  exact ⟨reset_pixelsInRange, Nat.zero_le 8, Nat.zero_le 26, hcodes⟩

theorem runWord_keeps_inv {w : Word} {s t : State} (h : runWord w s = .next t) (hs : s.Inv) : t.Inv := by
  cases hw : decode w with
  | ok i => exact exec_keeps_inv ((runWord_of_ok hw s).symm.trans h) hs
  | error e =>
    obtain rfl : s.raise .illegalCommand = t := Host.Outcome.next.inj ((runWord_of_error hw s).symm.trans h)
    exact raise_keeps_inv _ hs

/-- Settles O11: the invariant does not speak of the pending events, so taking one keeps it; what is run keeps it. -/
theorem stepKeepsInvariant : Obligations.StepKeepsInvariant := by
  intro s t hs h
  obtain ⟨-, he⟩ | ⟨rest, -, he⟩ | ⟨w, rest, -, he⟩ := step_cases s
  · obtain rfl : s = t := Host.Outcome.next.inj (he.symm.trans h)
    exact hs
  · obtain rfl : State.toReset { s with pending := rest } = t := Host.Outcome.next.inj (he.symm.trans h)
    exact toReset_keeps_inv (s := { s with pending := rest }) hs
  · exact runWord_keeps_inv (he.symm.trans h) hs

/-- Settles O12: zero is in every range, and no response has been given. -/
theorem resetHasInvariant : Obligations.ResetHasInvariant :=
  ⟨reset_pixelsInRange, Nat.zero_le 8, Nat.zero_le 26, rfl⟩

/-! ### The frame -/

/-- Settles O18: `exec_same` for every part. -/
theorem onlyWritersChangeParts : Obligations.OnlyWritersChangeParts := by
  intro i s
  obtain ⟨t, ht⟩ := exists_exec_eq_next i s
  exact ⟨t, ht, exec_pending ht, fun _ hp => exec_same ht hp⟩

/-! ### ST.SZ -/

theorem synStage_sz_iff (s : State) :
    (synStage s).st.sz = true ↔ ∀ j < s.st.psel.r, syndrome s.cw j = 0 := by
  rw [synStage_st_sz, syndromesZero_eq_true]
  refine forall₂_congr fun j hj => ?_
  rw [coeff_syndromes _ (hj.trans_le (profile_r_le _)), if_pos hj]

/-- Settles O19: RS.DEC leaves ST.SZ as its first stage set it, and every other command does not write it. -/
theorem szReportsTheLastSyndromes : Obligations.SzReportsTheLastSyndromes := by
  refine ⟨fun i s => ?_, fun w e s he => ⟨_, runWord_of_error he s, rfl⟩⟩
  obtain ⟨t, h⟩ := exists_exec_eq_next i s
  refine ⟨t, h, ?_⟩
  cases i with
  | reset =>
    cases h
    exact iff_of_false nofun id
  | rsSyn =>
    cases h
    exact synStage_sz_iff s
  | rsDec =>
    obtain ⟨u, d, rfl, hu⟩ := exec_rsDec_reaches h
    rw [respond_st_sz, hu.sz_eq]
    exact synStage_sz_iff s
  | _ =>
    have hsz : t.st.sz = s.st.sz := exec_same (p := .sz) h (by simp [writes])
    exact iff_of_eq (congrArg (· = true) hsz)

/-! ### ST.UNC -/

/-- Settles O20: each stage sets ST.UNC with the code of its response, alone (`finish_st_unc`) or inside RS.DEC
(`decodeWord_reaches`). -/
theorem uncFollowsTheStages : Obligations.UncFollowsTheStages := by
  refine ⟨fun i s => ?_, fun w e s he => ⟨_, runWord_of_error he s, rfl⟩, fun s => ⟨_, rfl, rfl⟩⟩
  obtain ⟨t, h⟩ := exists_exec_eq_next i s
  obtain ⟨c, d, hr⟩ := exec_responses h
  refine ⟨t, h, by rw [lastResponse_of_append hr, hr], ?_⟩
  cases i with
  | reset | rsSyn =>
    cases h
    rfl
  | rsBm =>
    obtain rfl : (bmStage s).finish = t := Host.Outcome.next.inj h
    exact finish_st_unc (bmStage_st_unc s)
  | rsChien =>
    obtain rfl : (chienStage s).finish = t := Host.Outcome.next.inj h
    exact finish_st_unc (chienStage_st_unc s)
  | rsForney =>
    obtain rfl : (forneyStage s).finish = t := Host.Outcome.next.inj h
    exact finish_st_unc (forneyStage_st_unc s)
  | rsDec =>
    obtain ⟨u, d, rfl, -⟩ := exec_rsDec_reaches h
    dsimp only
    rw [respond_lastResponse, responseCode_outcome, respond_st_unc]
  | _ => exact exec_same (p := .unc) h (by simp [writes])

/-! ### ST.INV0 -/

theorem symOperand_beq_zero {a : BitVec 5} {x : Sym} (h : symOperand a = some x) : (x == 0) = (a == 0) := by
  have hax := symOperand_eq_some.mp h
  rw [Bool.eq_iff_iff, beq_iff_eq, beq_iff_eq, Fin.ext_iff, ← BitVec.toNat_inj, hax]
  rfl

/-- GF.INV refuses a field above 26, so a refused field is not 0 (R73, R133). -/
theorem execGfInv_inv0 {a : BitVec 5} {s t : State} (h : execGfInv a s = .next t) :
    t.st.inv0 = (a == 0 || s.st.inv0) := by
  cases ha : symOperand a with
  | none =>
    obtain rfl : s.raise .badOperand = t := Host.Outcome.next.inj ((execGfInv_of_none ha s).symm.trans h)
    have hne : (a == 0) = false := by
      rw [beq_eq_false_iff_ne]
      rintro rfl
      exact absurd ha (by decide)
    rw [hne, Bool.false_or, State.raise, respond_st_inv0]
  | some x =>
    obtain rfl := Host.Outcome.next.inj ((execGfInv_of_some ha s).symm.trans h)
    rw [respond_st_inv0, Status.withInverted, symOperand_beq_zero ha]

/-- Settles O21: the frame, and `execGfInv_inv0` for the one command that sets the flag. -/
theorem inv0IsSticky : Obligations.Inv0IsSticky := by
  refine ⟨fun i s => ?_, fun w e s he => ⟨_, runWord_of_error he s, rfl⟩, fun s => ⟨_, rfl, rfl⟩⟩
  obtain ⟨t, h⟩ := exists_exec_eq_next i s
  refine ⟨t, h, ?_⟩
  cases i with
  | reset | statClr =>
    cases h
    rfl
  | gfInv a => exact execGfInv_inv0 h
  | _ => exact exec_same (p := .inv0) h (by simp [writes])

/-! ### ST.LASTERR -/

/-- A word that decodes is selected by the row that builds its command (R78, R81). -/
theorem exists_row_of_decode {w : Word} {i : Instr} (h : decode w = .ok i) :
    ∃ r ∈ opcodeTable, w &&& r.mask = r.pattern ∧ r.build w = i := by
  unfold decode at h
  cases hr : rowOf (opcode w) with
  | none => simp [hr] at h
  | some r =>
    simp only [hr] at h
    split at h
    · next hmask => exact ⟨r, List.mem_of_find?_eq_some hr, hmask, Except.ok.inj h⟩
    · cases h

/-- A command with a row of its own whose mask has every bit has one word, the pattern of the row. -/
theorem eq_pattern_of_decode {w p : Word} {i : Instr} (h : decode w = .ok i)
    (hrow : ∀ r ∈ opcodeTable, r.build w = i → r.mask = BitVec.allOnes 32 ∧ r.pattern = p) : w = p := by
  obtain ⟨r, hr, hsel, hbuild⟩ := exists_row_of_decode h
  obtain ⟨hmask, hpattern⟩ := hrow r hr hbuild
  rwa [hmask, BitVec.and_allOnes, hpattern] at hsel

theorem eq_of_decode_statClr {w : Word} (h : decode w = .ok .statClr) : w = 0x08000000#32 :=
  eq_pattern_of_decode h (by
    simp [opcodeTable, systemRows, tritRows, fieldRows, bufferRows, rsRows, crcRows, pixelRows])

theorem eq_of_decode_reset {w : Word} (h : decode w = .ok .reset) : w = 0x0C000000#32 :=
  eq_pattern_of_decode h (by
    simp [opcodeTable, systemRows, tritRows, fieldRows, bufferRows, rsRows, crcRows, pixelRows])

/-- The words that clear ST.LASTERR (R34) are those of STAT.CLR and RESET. -/
theorem clears_iff_of_decode {w : Word} {i : Instr} (h : decode w = .ok i) :
    (i = .statClr ∨ i = .reset) ↔ (w = 0x08000000#32 ∨ w = 0x0C000000#32) := by
  constructor
  · rintro (rfl | rfl)
    · exact .inl (eq_of_decode_statClr h)
    · exact .inr (eq_of_decode_reset h)
  · rintro (rfl | rfl)
    · exact .inl (Except.ok.inj (h.symm.trans (by decide)))
    · exact .inr (Except.ok.inj (h.symm.trans (by decide)))

theorem ne_ok_of_isFault {c : ResultCode} (h : c.isFault = true) : c ≠ .ok := by
  rintro rfl
  exact absurd h (by decide)

/-- Settles O16: the response is the last to write ST.LASTERR, and STAT.CLR and RESET alone have cleared it before. -/
theorem lasterrFollowsTheResponses : Obligations.LasterrFollowsTheResponses := by
  refine ⟨fun w s => ?_, fun s => ⟨_, rfl, rfl⟩, rfl⟩
  cases hw : decode w with
  | error e =>
    exact ⟨_, .illegalCommand, 0, runWord_of_error hw s, rfl, rfl, fun _ => raise_eq_faulted s (by decide)⟩
  | ok i =>
    obtain ⟨u, c, d, he⟩ := exec_ends i s
    refine ⟨u.respond c d, c, d, (runWord_of_ok hw s).trans he.exec_eq, ?_, ?_, fun hc => ?_⟩
    · rw [respond_responses, he.responses_eq, responseWord]
    · simp only [respond_st_lasterr, lasterrAfter, he.lasterr_eq, clears_iff_of_decode hw, ite_not]
    · rw [he.eq_of_isFault hc, respond_eq_faulted s (ne_ok_of_isFault hc)]

/-! ### The reset state, STAT.RD and RS.CFG -/

/-- Settles O13: the vectors element by element, the rest by the definitions. -/
theorem resetZeroesEverything : Obligations.ResetZeroesEverything := by
  refine ⟨?_, ?_, ?_, ?_, ?_, ?_, ?_, ?_, rfl, rfl, rfl, rfl, rfl, rfl, rfl, fun _ => rfl⟩ <;> intro n <;>
    simp [State.reset]

/-- Settles O38: a field the command accepts is the code of the profile it selects. -/
theorem rsCfgSelects : Obligations.RsCfgSelects := by
  intro p s
  cases h : profileOperand p with
  | none =>
    have hp := profileOperand_eq_none.mp h
    rw [if_neg (by omega)]
    exact (execRsCfg_of_none h s).trans (by rw [raise_eq_faulted s (by decide)]; rfl)
  | some q =>
    have hp := profileOperand_eq_some.mp h
    have hq : q.code.toNat ≤ 3 ∧ q.k = 24 - 2 * q.code.toNat ∧ q.r = 2 + 2 * q.code.toNat ∧
        q.t = 1 + q.code.toNat := by
      cases q <;> decide
    rw [← hp] at hq
    obtain ⟨hle, hparams⟩ := hq
    rw [if_pos hle]
    exact ⟨q, execRsCfg_of_some h s, hparams⟩

/-- The eight fields of a word put together as R29 lays out ST, low bits last. -/
theorem statusLayout_fields (z : BitVec 10) (nroot : BitVec 5) (len err : BitVec 4) (inv0 unc sz : BitVec 1)
    (psel : BitVec 2) :
    let d := z ++ nroot ++ len ++ err ++ inv0 ++ unc ++ sz ++ psel
    d.extractLsb' 0 2 = psel ∧ d.extractLsb' 2 1 = sz ∧ d.extractLsb' 3 1 = unc ∧ d.extractLsb' 4 1 = inv0 ∧
      d.extractLsb' 5 4 = err ∧ d.extractLsb' 9 4 = len ∧ d.extractLsb' 13 5 = nroot ∧ d.extractLsb' 18 10 = z := by
  simp [-Nat.reduceAdd, BitVec.extractLsb'_append_eq_of_le, BitVec.extractLsb'_append_eq_right]

theorem getLsbD_of_extractLsb' {n k : Nat} {x : BitVec n} {b : Bool} (h : x.extractLsb' k 1 = BitVec.ofBool b) :
    x.getLsbD k = b := by
  have hbit := congrArg (BitVec.getLsbD · 0) h
  simpa using hbit

/-- Settles O23: the fields of R29's layout, each as the number it holds. -/
theorem statRdLayout : Obligations.StatRdLayout := by
  intro s
  obtain ⟨hpsel, hsz, hunc, hinv0, herr, hlen, hnroot, hzero⟩ :=
    statusLayout_fields 0#10 (BitVec.ofNat 5 s.st.nroot) (BitVec.ofNat 4 s.st.len) s.st.lasterr.code
      (BitVec.ofBool s.st.inv0) (BitVec.ofBool s.st.unc) (BitVec.ofBool s.st.sz) s.st.psel.code
  refine ⟨s.st.data, rfl, ?_, getLsbD_of_extractLsb' hsz, getLsbD_of_extractLsb' hunc,
    getLsbD_of_extractLsb' hinv0, ?_, fun h => ?_, fun h => ?_, hzero⟩
  · refine (congrArg BitVec.toNat hpsel).trans ?_
    cases s.st.psel <;> rfl
  · refine (congrArg BitVec.toNat herr).trans ?_
    cases s.st.lasterr <;> rfl
  · exact (congrArg BitVec.toNat hlen).trans (Nat.mod_eq_of_lt (by omega))
  · exact (congrArg BitVec.toNat hnroot).trans (Nat.mod_eq_of_lt (by omega))

end Sys2Proof.Machine
end

section
/-! PROOFS. The buffer space and the link (spec/20_memory.md): an access at an address of a buffer reads or writes that
one element, every other address is OutOfRange, and a word crosses a byte-wide link least significant byte first.

BUF.WR and BUF.RD check the address alike, so `addressOperand_eq_none` says once which addresses both refuse, over the
lengths the statements write; the rest is one equation for each way a command ends. -/

namespace Sys2Proof.Machine

/-! ### The addresses and values BUF.WR and BUF.RD refuse -/

/-- The statements' table of lengths is the length of the buffer the id names, and 0 where it names none (R51). -/
theorem bufferLength_eq_elim (buf : BitVec 3) : WellFormed.bufferLength buf = (bufOperand buf).elim 0 BufId.length := by
  revert buf
  decide

@[simp] theorem bufOperand_id (b : BufId) : bufOperand b.id = some b := by cases b <;> rfl

theorem bufferLength_id (b : BufId) : WellFormed.bufferLength b.id = b.length := by
  rw [bufferLength_eq_elim, bufOperand_id, Option.elim_some]

theorem bufferLength_of_six_le {buf : BitVec 3} (h : 6 ≤ buf.toNat) : WellFormed.bufferLength buf = 0 := by
  revert buf
  decide

theorem addressOperand_eq_none {buf : BitVec 3} {idx : BitVec 5} :
    addressOperand buf idx = none ↔ WellFormed.bufferLength buf ≤ idx.toNat := by
  rw [bufferLength_eq_elim, addressOperand]
  cases bufOperand buf <;> simp

theorem addressOperand_id {b : BufId} {idx : BitVec 5} (h : idx.toNat < b.length) :
    addressOperand b.id idx = some (b, idx.toNat) :=
  addressOperand_eq_some.mpr ⟨bufOperand_id b, h, rfl⟩

theorem elementOperand_of_le {b : BufId} {f : BitVec 5} (h : f.toNat ≤ 26) (hloc : b = .loc → f.toNat ≤ 1) :
    elementOperand b f = some ⟨f.toNat, by omega⟩ :=
  elementOperand_eq_some.mpr ⟨rfl, hloc⟩

theorem elementOperand_eq_none {b : BufId} {f : BitVec 5} :
    elementOperand b f = none ↔ ¬(f.toNat ≤ 26 ∧ (b = .loc → f.toNat ≤ 1)) := by
  constructor
  · rintro hnone ⟨hsym, hloc⟩
    exact absurd (elementOperand_of_le hsym hloc) (by simp [hnone])
  · refine fun hbad => Option.eq_none_iff_forall_ne_some.mpr fun v hv => hbad ?_
    obtain ⟨hval, hloc⟩ := elementOperand_eq_some.mp hv
    exact ⟨by omega, hval ▸ hloc⟩

/-! ### BUF.WR and BUF.RD, one equation for each way they end -/

theorem raise_outOfRange (s : State) : s.raise .outOfRange = s.faulted .outOfRange 0x30000000#32 :=
  raise_eq_faulted s (by decide)

theorem raise_badOperand (s : State) : s.raise .badOperand = s.faulted .badOperand 0x20000000#32 :=
  raise_eq_faulted s (by decide)

theorem exec_bufWr_outOfRange {buf : BitVec 3} {idx : BitVec 5} (h : WellFormed.bufferLength buf ≤ idx.toNat)
    (sym : BitVec 5) (s : State) :
    exec (.bufWr buf idx sym) s = .next (s.faulted .outOfRange 0x30000000#32) := by
  simp [exec, execBufWr, addressOperand_eq_none.mpr h, raise_outOfRange]

theorem exec_bufWr_badOperand {b : BufId} {idx sym : BitVec 5} (hidx : idx.toNat < b.length)
    (hsym : ¬(sym.toNat ≤ 26 ∧ (b = .loc → sym.toNat ≤ 1))) (s : State) :
    exec (.bufWr b.id idx sym) s = .next (s.faulted .badOperand 0x20000000#32) := by
  simp [exec, execBufWr, addressOperand_id hidx, elementOperand_eq_none.mpr hsym, raise_badOperand]

theorem exec_bufWr_ok {b : BufId} {idx sym : BitVec 5} (hidx : idx.toNat < b.length) (hsym : sym.toNat ≤ 26)
    (hloc : b = .loc → sym.toNat ≤ 1) (s : State) :
    exec (.bufWr b.id idx sym) s =
      .next ((s.memWrite b idx.toNat ⟨sym.toNat, by omega⟩).respond .ok 0) := by
  simp [exec, execBufWr, addressOperand_id hidx, elementOperand_of_le hsym hloc]

theorem exec_bufRd_outOfRange {buf : BitVec 3} {idx : BitVec 5} (h : WellFormed.bufferLength buf ≤ idx.toNat)
    (s : State) : exec (.bufRd buf idx) s = .next (s.faulted .outOfRange 0x30000000#32) := by
  simp [exec, execBufRd, addressOperand_eq_none.mpr h, raise_outOfRange]

theorem bufId_length_le (b : BufId) : b.length ≤ 26 := by cases b <;> decide

/-- BUF.RD at an address of the buffer `b` answers the number that stands there (R245). -/
theorem exec_bufRd_ok {b : BufId} {i n : Nat} {s : State} (h : i < b.length) (hn : (s.memRead b i).val = n) :
    exec (.bufRd b.id (BitVec.ofNat 5 i)) s = .next (s.answered (BitVec.ofNat 32 n)) := by
  have hi : (BitVec.ofNat 5 i).toNat = i := Nat.mod_eq_of_lt (by have := bufId_length_le b; omega)
  have haddress : addressOperand b.id (BitVec.ofNat 5 i) = some (b, i) := by
    rw [addressOperand_id (hi.symm ▸ h), hi]
  simp [exec, execBufRd, haddress, respond_ok_eq_answered, ok_append_symData, hn]

theorem val_memRead_loc (s : State) (i : Fin 26) : (s.memRead .loc i).val = (s.loc[i]).toNat := by
  rw [State.memRead, locEntry_of_lt s.loc i.isLt, Fin.getElem_fin]
  cases s.loc[i.val] <;> rfl

/-! ### The byte-wide link -/

/-- The four bytes of a word, put back together most significant first, are the word (R54). -/
theorem append_bytes (w : Word) : field w 24 8 ++ field w 16 8 ++ field w 8 8 ++ field w 0 8 = w := by
  simp only [field]
  rw [BitVec.extractLsb'_append_extractLsb'_eq_extractLsb' (show 24 = 16 + 8 from rfl),
    BitVec.extractLsb'_append_extractLsb'_eq_extractLsb' (show 16 = 8 + 8 from rfl),
    BitVec.extractLsb'_append_extractLsb'_eq_extractLsb' (show 8 = 0 + 8 from rfl)]
  exact BitVec.extractLsb'_eq_self

theorem wordOfLink_linkBytes (w : Word) (rest : List Byte) : wordOfLink (linkBytes w ++ rest) = some (w, rest) := by
  simp only [linkBytes, List.cons_append, List.nil_append, wordOfLink, append_bytes]

theorem decodeBytes_of_ok {w : Word} {i : Instr} (h : decode w = .ok i) (rest : List Byte) :
    decodeBytes (linkBytes w ++ rest) = .ok (i, rest) := by
  simp [decodeBytes, wordOfLink_linkBytes, h]

theorem decodeBytes_of_error {w : Word} {e : DecodeError} (h : decode w = .error e) (rest : List Byte) :
    decodeBytes (linkBytes w ++ rest) = .error e := by
  simp [decodeBytes, wordOfLink_linkBytes, h]

/-! ### The statements -/

/-- Settles O36: the address is in the buffer or refused, then the value is one the buffer holds or refused. -/
theorem bufWrWritesOneElement : Obligations.BufWrWritesOneElement := by
  refine ⟨fun b idx sym s => ?_, fun buf idx sym s h =>
    exec_bufWr_outOfRange (bufferLength_of_six_le h ▸ Nat.zero_le _) sym s⟩
  split
  case isFalse hidx => exact exec_bufWr_outOfRange (Nat.not_lt.mp hidx) sym s
  case isTrue hidx =>
    rw [bufferLength_id] at hidx
    split
    case isFalse hsym => exact exec_bufWr_badOperand hidx hsym s
    case isTrue hsym =>
      obtain ⟨hsym, hloc⟩ := hsym
      refine ⟨_, exec_bufWr_ok hidx hsym hloc s, fun b' j => ?_, by simp, ?_, by simp, by simp, ?_⟩
      · rw [respond_memRead, memRead_memWrite s hidx hloc, apply_ite Fin.val]
      · rw [respond_ok, memWrite_st]
      · rw [respond_responses, memWrite_responses]
        rfl

/-- Settles O37: each buffer is `exec_bufRd_ok` at its id, with the element that buffer's `memRead` stands for. -/
theorem bufRdReadsElement : Obligations.BufRdReadsElement := by
  refine ⟨fun s i => ⟨?cw, ?loc⟩, fun s i => ⟨?syn, ?omg⟩, fun s i => ⟨?sig, ?w⟩,
    fun _ _ s h => exec_bufRd_outOfRange h s⟩
  case cw => exact exec_bufRd_ok (b := .cw) i.isLt (congrArg Fin.val (coeff_of_lt s.cw i.isLt))
  case loc =>
    refine (exec_bufRd_ok (b := .loc) i.isLt (val_memRead_loc s i)).trans ?_
    cases s.loc[i] <;> rfl
  case syn => exact exec_bufRd_ok (b := .syn) i.isLt (congrArg Fin.val (coeff_of_lt s.syn i.isLt))
  case omg => exact exec_bufRd_ok (b := .omg) i.isLt (congrArg Fin.val (coeff_of_lt s.omg i.isLt))
  case sig => exact exec_bufRd_ok (b := .sig) i.isLt (congrArg Fin.val (coeff_of_lt s.sig i.isLt))
  case w => exact exec_bufRd_ok (b := .w) i.isLt (congrArg Fin.val (coeff_of_lt s.w i.isLt))

/-- Settles O5: the word of the link is the word sent, and the decoder sees that word. -/
theorem linkIsLittleEndian : Obligations.LinkIsLittleEndian := by
  refine fun w rest => ⟨rfl, fun j hj => ?_, wordOfLink_linkBytes w rest, fun i hi => decodeBytes_of_ok hi rest,
    fun e he => decodeBytes_of_error he rest⟩
  interval_cases j <;> rfl

end Sys2Proof.Machine
end

section
/-! PROOFS. The command encoding (spec/30_encoding.md): the decoder and the encoder undo each other, a word that selects
no row of the opcode map is IllegalCommand, and the assembler reaches every command; then what the commands whose
operands are lanes, symbols and pixels answer (R72 to R74, R77).

A field read where it was put is what was put there (`field_place_self`), and put back where it was read it is the word
under the field's mask (`place_field`). The first gives `decode_encode`; the second gives `encode_build`, that a row's
fields are all the bits outside its mask. `decode_eq_ok_iff` then says once which words are commands. -/

namespace Sys2Proof.Machine

/-! ### Fields of a word -/

@[simp] theorem field_or (v w : Word) (lo n : Nat) : field (v ||| w) lo n = field v lo n ||| field w lo n :=
  BitVec.extractLsb'_or

@[simp] theorem field_place_self {n lo : Nat} (x : BitVec n) (h : lo + n ≤ 32) : field (place x lo) lo n = x := by
  refine BitVec.eq_of_getLsbD_eq fun i hi => ?_
  simp [field, place, hi, show lo + i < 32 by omega]

@[simp] theorem field_place_disjoint {m n lo lo' : Nat} (x : BitVec m) (h : lo + n ≤ lo' ∨ lo' + m ≤ lo) :
    field (place x lo') lo n = 0#n := by
  refine BitVec.eq_of_getLsbD_eq fun i hi => ?_
  simp only [field, place, BitVec.getLsbD_extractLsb', BitVec.getLsbD_shiftLeft, BitVec.getLsbD_setWidth,
    BitVec.getLsbD_zero]
  rcases h with h | h
  · simp [show lo + i < lo' by omega]
  · simp [BitVec.getLsbD_of_ge x (lo + i - lo') (by omega)]

/-- A field put back where it was read is the word under the field's mask. -/
theorem place_field {n lo : Nat} (w : Word) :
    place (field w lo n) lo = w &&& place (BitVec.allOnes n) lo := by
  refine BitVec.eq_of_getLsbD_eq fun i hi => ?_
  simp only [field, place, BitVec.getLsbD_extractLsb', BitVec.getLsbD_shiftLeft, BitVec.getLsbD_setWidth,
    BitVec.getLsbD_and, BitVec.getLsbD_allOnes]
  by_cases hlo : i < lo
  · simp [hlo]
  · rw [show lo + (i - lo) = i by omega]
    grind

theorem lanes_eq {n : Nat} {w : Word} {t : Vector (BitVec 2) n}
    (h : ∀ (i : Nat) (hi : i < n), field w (2 * i) 2 = t[i]) : lanes w = t :=
  Vector.ext fun i hi => by simp [lanes, h i hi]

theorem field_placeLanes (t : Vector (BitVec 2) 13) {i : Nat} (hi : i < 13) :
    field (placeLanes t) (2 * i) 2 = t[i] := by
  interval_cases i <;> simp [placeLanes]

/-- The row a command's encoding selects is the row of its opcode, so the command decodes to what that row builds. -/
theorem decode_encode_of_row {i : Instr} {r : Row} (hsel : Laws.RowSelected.Statement i) (op : BitVec 6)
    (hrow : rowOf op = some r) (hop : opcode (encode i) = op := by simp [opcode, encode])
    (hbuild : r.build (encode i) = i := by simp [encode]) : decode (encode i) = .ok i := by
  obtain ⟨r', hr', hmask⟩ := hsel
  obtain rfl : r = r' := Option.some.inj (by rw [← hrow, ← hr', hop])
  simp [decode, hr', hmask, hbuild]

/-- A command with operands is rebuilt from its fields by the row of its opcode; the others have one word each. -/
theorem decode_encode (i : Instr) : decode (encode i) = .ok i := by
  cases i with
  | tritB2u t =>
    exact decode_encode_of_row (Laws.RowSelected.tritB2u t) 0x08#6 rfl (by simp [opcode, encode, placeLanes])
      (congrArg Instr.tritB2u (lanes_eq fun i hi => by simp (disch := omega) [encode, field_placeLanes t hi]))
  | tritU2b t =>
    exact decode_encode_of_row (Laws.RowSelected.tritU2b t) 0x09#6 rfl (by simp [opcode, encode, placeLanes])
      (congrArg Instr.tritU2b (lanes_eq fun i hi => by simp (disch := omega) [encode, field_placeLanes t hi]))
  | pack243 k t =>
    refine decode_encode_of_row (Laws.RowSelected.pack243 k t) 0x0A#6 rfl (hbuild := ?_)
    exact congrArg₂ Instr.pack243 (by simp [encode]) (lanes_eq fun i hi => by interval_cases i <;> simp [encode])
  | unpk243 k byte => exact decode_encode_of_row (Laws.RowSelected.unpk243 k byte) 0x0B#6 rfl
  | gfAdd a b => exact decode_encode_of_row (Laws.RowSelected.gfAdd a b) 0x10#6 rfl
  | gfSub a b => exact decode_encode_of_row (Laws.RowSelected.gfSub a b) 0x11#6 rfl
  | gfMul a b => exact decode_encode_of_row (Laws.RowSelected.gfMul a b) 0x12#6 rfl
  | gfInv a => exact decode_encode_of_row (Laws.RowSelected.gfInv a) 0x13#6 rfl
  | gfPowa e => exact decode_encode_of_row (Laws.RowSelected.gfPowa e) 0x14#6 rfl
  | bufWr buf idx sym => exact decode_encode_of_row (Laws.RowSelected.bufWr buf idx sym) 0x18#6 rfl
  | bufRd buf idx => exact decode_encode_of_row (Laws.RowSelected.bufRd buf idx) 0x19#6 rfl
  | rsCfg p => exact decode_encode_of_row (Laws.RowSelected.rsCfg p) 0x20#6 rfl
  | crcTrit t => exact decode_encode_of_row (Laws.RowSelected.crcTrit t) 0x29#6 rfl
  | crcSym a => exact decode_encode_of_row (Laws.RowSelected.crcSym a) 0x2A#6 rfl
  | pixLd n y cb cr => exact decode_encode_of_row (Laws.RowSelected.pixLd n y cb cr) 0x30#6 rfl
  | pixRd n => exact decode_encode_of_row (Laws.RowSelected.pixRd n) 0x31#6 rfl
  | _ => rfl

/-! ### The opcode map -/

/-- The command a row builds from a word is encoded by the row's pattern and the bits of the word outside the row's
mask: the fields the row reads are exactly those bits (R71, R78). `place_field` makes each side a mask of the word; the
masks are then closed numbers. -/
theorem encode_build {r : Row} (hr : r ∈ opcodeTable) (w : Word) :
    encode (r.build w) = r.pattern ||| (w &&& ~~~r.mask) := by
  revert r
  simp only [opcodeTable, systemRows, tritRows, fieldRows, bufferRows, rsRows, crcRows, pixelRows, List.cons_append,
    List.nil_append, List.forall_mem_cons, encode, placeLanes, lanes, Vector.getElem_ofFn, place_field, BitVec.or_assoc,
    ← BitVec.and_or_distrib_left]
  simp [place]

/-- Under the mask a word that selects the row is the pattern, so nothing of the word is lost (R71). -/
theorem encode_build_of_selected {r : Row} {w : Word} (hr : r ∈ opcodeTable) (hsel : w &&& r.mask = r.pattern) :
    encode (r.build w) = w := by
  rw [encode_build hr, ← hsel, ← BitVec.and_or_distrib_left]
  exact (congrArg (w &&& ·) (BitVec.or_not_self r.mask)).trans BitVec.and_allOnes

/-- The 33 assigned opcodes of R78, in the order of its rows. -/
theorem opcodes_eq : (opcodeTable.map fun r => (opcode r.pattern).toNat) =
    [0x00, 0x01, 0x02, 0x03, 0x08, 0x09, 0x0A, 0x0B, 0x10, 0x11, 0x12, 0x13, 0x14, 0x18, 0x19, 0x20, 0x21, 0x22, 0x23,
      0x24, 0x25, 0x26, 0x28, 0x29, 0x2A, 0x2B, 0x2C, 0x30, 0x31, 0x32, 0x33, 0x34, 0x35] := rfl

/-- No two rows have the same opcode (R78). -/
theorem row_eq_of_opcode_eq {r r' : Row} (hr : r ∈ opcodeTable) (hr' : r' ∈ opcodeTable)
    (h : opcode r.pattern = opcode r'.pattern) : r = r' := by
  have hnodup : (opcodeTable.map fun r => (opcode r.pattern).toNat).Nodup := by
    rw [opcodes_eq]
    decide
  exact List.inj_on_of_nodup_map hnodup hr hr' (congrArg BitVec.toNat h)

theorem opcode_not_mem_printedUnassigned {r : Row} (hr : r ∈ opcodeTable) :
    (opcode r.pattern).toNat ∉ printedUnassigned := by
  have hdisjoint : ∀ op ∈ opcodeTable.map (fun r => (opcode r.pattern).toNat), op ∉ printedUnassigned := by
    rw [opcodes_eq]
    decide
  exact hdisjoint _ (List.mem_map_of_mem hr)

theorem rowOf_opcode_pattern {r : Row} (hr : r ∈ opcodeTable) : rowOf (opcode r.pattern) = some r := by
  cases h : rowOf (opcode r.pattern) with
  | none => exact absurd (List.find?_eq_none.mp h r hr) (by simp)
  | some r' => rw [row_eq_of_opcode_eq (List.mem_of_find?_eq_some h) hr (by simpa using List.find?_some h)]

/-- A row's mask covers the opcode, so a word that selects the row has the row's opcode (R78). -/
theorem opcode_of_selected {r : Row} {w : Word} (hr : r ∈ opcodeTable) (hsel : w &&& r.mask = r.pattern) :
    opcode w = opcode r.pattern := by
  have hmask : opcode r.mask = BitVec.allOnes 6 :=
    (by decide : ∀ r ∈ opcodeTable, opcode r.mask = BitVec.allOnes 6) r hr
  calc opcode w = opcode w &&& opcode r.mask := by rw [hmask, BitVec.and_allOnes]
    _ = opcode (w &&& r.mask) := BitVec.extractLsb'_and.symm
    _ = opcode r.pattern := by rw [hsel]

/-- The decoder in terms of the opcode map alone: a word is a command exactly when it selects a row (R78, R81). -/
theorem decode_eq_ok_iff {w : Word} {i : Instr} :
    decode w = .ok i ↔ ∃ r ∈ opcodeTable, w &&& r.mask = r.pattern ∧ r.build w = i := by
  refine ⟨exists_row_of_decode, ?_⟩
  rintro ⟨r, hr, hsel, rfl⟩
  simp [decode, opcode_of_selected hr hsel, rowOf_opcode_pattern hr, hsel]

/-- Settles O1, by `decode_encode`. -/
theorem decodeOfEncode : Obligations.DecodeOfEncode := decode_encode

/-- Settles O2: the word selects the row that built the command, and encoding puts back every bit outside the mask. -/
theorem encodeOfDecode : Obligations.EncodeOfDecode := by
  intro w i h
  obtain ⟨r, hr, hsel, rfl⟩ := exists_row_of_decode h
  exact encode_build_of_selected hr hsel

theorem decode_of_encode_eq {w : Word} {i : Instr} (h : encode i = w) : decode w = .ok i := h ▸ decode_encode i

/-- Settles O4: each word is the encoding of its command. -/
theorem exampleWordsDecode : Obligations.ExampleWordsDecode := by
  unfold Obligations.ExampleWordsDecode
  refine ⟨?_, ?_, ?_, ?_, ?_, ?_, ?_, ?_, ?_, ?_, ?_, ?_, ?_, ?_⟩ <;> exact decode_of_encode_eq (by decide)

/-! ### Words that are no command -/

/-- The rows the statements print are those the decoder reads (R78). -/
theorem printedRows_eq : printedRows = opcodeTable.map fun r => (r.pattern, r.mask) := rfl

theorem forall_mem_printedRows {p : Word × Word → Prop} :
    (∀ row ∈ printedRows, p row) ↔ ∀ r ∈ opcodeTable, p (r.pattern, r.mask) := by
  rw [printedRows_eq, List.forall_mem_map]

theorem exists_mem_printedRows {p : Word × Word → Prop} :
    (∃ row ∈ printedRows, p row) ↔ ∃ r ∈ opcodeTable, p (r.pattern, r.mask) := by
  rw [printedRows_eq]
  simp only [List.mem_map, exists_exists_and_eq_and]

/-- A word that selects no row is the fault IllegalCommand (R79). -/
theorem runWord_of_unselected {w : Word} (h : ∀ r ∈ opcodeTable, w &&& r.mask ≠ r.pattern) (s : State) :
    runWord w s = .next (s.faulted .illegalCommand 0x10000000#32) := by
  cases hw : decode w with
  | ok i =>
    obtain ⟨r, hr, hsel, -⟩ := exists_row_of_decode hw
    exact absurd hsel (h r hr)
  | error e => exact (runWord_of_error hw s).trans (congrArg _ (raise_eq_faulted s (by decide)))

/-- Settles O3: a word selects at most the row of its opcode, and an unassigned opcode has no row. -/
theorem unselectedWordsAreIllegal : Obligations.UnselectedWordsAreIllegal := by
  intro w s
  rw [forall_mem_printedRows, forall_mem_printedRows, exists_mem_printedRows]
  refine ⟨fun hnone => runWord_of_unselected hnone s, fun hop => ?_, fun r hr hop hne => ?_, ?_⟩
  · refine runWord_of_unselected (fun r hr hsel => opcode_not_mem_printedUnassigned hr ?_) s
    rwa [← opcode_of_selected hr hsel]
  · refine runWord_of_unselected (fun r' hr' hsel => hne ?_) s
    obtain rfl := row_eq_of_opcode_eq hr hr' (hop.symm.trans (opcode_of_selected hr' hsel))
    exact hsel
  · rintro ⟨r, hr, hsel⟩
    have hok := decode_eq_ok_iff.mpr ⟨r, hr, hsel, rfl⟩
    exact ⟨_, hok, runWord_of_ok hok s⟩

/-! ### The assembler -/

@[simp] theorem asmUnsigned_toNat {n : Nat} (x : BitVec n) : asmUnsigned n x.toNat = some x := by
  have hlt : (x.toNat : Int) < 2 ^ n := by exact_mod_cast x.isLt
  simp [asmUnsigned, hlt]

@[simp] theorem asmSigned_toInt {n : Nat} (x : BitVec (n + 1)) : asmSigned n x.toInt = some x := by
  have hlt := x.toInt_lt
  have hle := x.le_toInt
  simp only [Nat.add_sub_cancel] at hlt hle
  simp [asmSigned, hlt, hle]

theorem mapM_map_eq_some {lane : Int → Option (BitVec 2)} {num : BitVec 2 → Int}
    (h : ∀ x, lane (num x) = some x) (xs : List (BitVec 2)) : (xs.map num).mapM lane = some xs := by
  induction xs with
  | nil => rfl
  | cons x xs ih => simp [h, ih]

theorem asmLanes_map {n : Nat} {lane : Int → Option (BitVec 2)} {num : BitVec 2 → Int}
    (h : ∀ x, lane (num x) = some x) (t : Vector (BitVec 2) n) : asmLanes n lane (t.toList.map num) = some t := by
  rw [asmLanes, mapM_map_eq_some h]
  simp

theorem assemble_map_num {m : String} (h : m ≠ "BUF.WR") (h' : m ≠ "BUF.RD") (vs : List Int) :
    assemble m (vs.map .num) = assembleNumbers m vs := by
  cases vs with
  | nil => rfl
  | cons v vs => simp [assemble, h, h', AsmOperand.isNum, AsmOperand.value, List.filterMap_map, Function.comp_def]

theorem assembleNumbers_pack243 (k : BitVec 3) (t : Vector (BitVec 2) 5) :
    assembleNumbers "PACK243" (k.toNat :: t.toList.map fun x => (x.toNat : Int)) = some (.pack243 k t) := by
  have hlanes := asmLanes_map (lane := asmUnsigned 2) asmUnsigned_toNat t
  cases h : t.toList.map fun x => (x.toNat : Int) with
  | nil => simpa using congrArg List.length h
  | cons v vs => simp [assembleNumbers, ← h, hlanes]

theorem exists_assemble_of_numbers {i : Instr} (m : String) (vs : List Int) (hi : assembleNumbers m vs = some i)
    (h : m ≠ "BUF.WR" := by decide) (h' : m ≠ "BUF.RD" := by decide) : ∃ m ops, assemble m ops = some i :=
  ⟨m, vs.map .num, (assemble_map_num h h' vs).trans hi⟩

/-- Settles O6: the mnemonic of the command's row, with each field written as the number it holds. -/
theorem assemblerReachesEveryCommand : Obligations.AssemblerReachesEveryCommand := by
  intro i
  cases i with
  | nop => exact ⟨"NOP", [], rfl⟩
  | statRd => exact ⟨"STAT.RD", [], rfl⟩
  | statClr => exact ⟨"STAT.CLR", [], rfl⟩
  | reset => exact ⟨"RESET", [], rfl⟩
  | rsEnc => exact ⟨"RS.ENC", [], rfl⟩
  | rsSyn => exact ⟨"RS.SYN", [], rfl⟩
  | rsBm => exact ⟨"RS.BM", [], rfl⟩
  | rsChien => exact ⟨"RS.CHIEN", [], rfl⟩
  | rsForney => exact ⟨"RS.FORNEY", [], rfl⟩
  | rsDec => exact ⟨"RS.DEC", [], rfl⟩
  | crcInit => exact ⟨"CRC.INIT", [], rfl⟩
  | crcFin => exact ⟨"CRC.FIN", [], rfl⟩
  | crcRd => exact ⟨"CRC.RD", [], rfl⟩
  | pixPack2 => exact ⟨"PIX.PACK2", [], rfl⟩
  | pixPack1 => exact ⟨"PIX.PACK1", [], rfl⟩
  | pixUnpk2 => exact ⟨"PIX.UNPK2", [], rfl⟩
  | pixUnpk1 => exact ⟨"PIX.UNPK1", [], rfl⟩
  | tritB2u t =>
    exact exists_assemble_of_numbers "TRIT.B2U" (t.toList.map fun x => x.toInt)
      (by simp [assembleNumbers, asmLanes_map asmSigned_toInt])
  | tritU2b t =>
    exact exists_assemble_of_numbers "TRIT.U2B" (t.toList.map fun x => (x.toNat : Int))
      (by simp [assembleNumbers, asmLanes_map asmUnsigned_toNat])
  | pack243 k t => exact exists_assemble_of_numbers "PACK243" _ (assembleNumbers_pack243 k t)
  | unpk243 k byte => exact exists_assemble_of_numbers "UNPK243" [k.toNat, byte.toNat] (by simp [assembleNumbers])
  | gfAdd a b => exact exists_assemble_of_numbers "GF.ADD" [a.toNat, b.toNat] (by simp [assembleNumbers])
  | gfSub a b => exact exists_assemble_of_numbers "GF.SUB" [a.toNat, b.toNat] (by simp [assembleNumbers])
  | gfMul a b => exact exists_assemble_of_numbers "GF.MUL" [a.toNat, b.toNat] (by simp [assembleNumbers])
  | gfInv a => exact exists_assemble_of_numbers "GF.INV" [a.toNat] (by simp [assembleNumbers])
  | gfPowa e => exact exists_assemble_of_numbers "GF.POWA" [e.toNat] (by simp [assembleNumbers])
  | rsCfg p => exact exists_assemble_of_numbers "RS.CFG" [p.toNat] (by simp [assembleNumbers])
  | crcTrit t => exact exists_assemble_of_numbers "CRC.TRIT" [t.toNat] (by simp [assembleNumbers])
  | crcSym a => exact exists_assemble_of_numbers "CRC.SYM" [a.toNat] (by simp [assembleNumbers])
  | pixRd n => exact exists_assemble_of_numbers "PIX.RD" [n.toNat] (by simp [assembleNumbers])
  | pixLd n y cb cr =>
    exact exists_assemble_of_numbers "PIX.LD" [n.toNat, y.toInt, cb.toInt, cr.toInt] (by simp [assembleNumbers])
  | bufWr buf idx sym =>
    exact ⟨"BUF.WR", [.num buf.toNat, .num idx.toNat, .num sym.toNat],
      by simp [assemble, AsmOperand.isNum, AsmOperand.value]⟩
  | bufRd buf idx =>
    exact ⟨"BUF.RD", [.num buf.toNat, .num idx.toNat], by simp [assemble, AsmOperand.isNum, AsmOperand.value]⟩

/-! ### The trit converter -/

theorem dataLane_cons_zero (l : BitVec 2) (ls : List (BitVec 2)) : dataLane (lanesData (l :: ls)) 0 = l := by
  refine BitVec.eq_of_getLsbD_eq fun j hj => ?_
  simp only [dataLane, lanesData, BitVec.getLsbD_extractLsb', BitVec.getLsbD_or, BitVec.getLsbD_shiftLeft,
    BitVec.getLsbD_setWidth]
  interval_cases j <;> simp

theorem dataLane_cons_succ (l : BitVec 2) (ls : List (BitVec 2)) {i : Nat} (hi : i + 1 < 14) :
    dataLane (lanesData (l :: ls)) (i + 1) = dataLane (lanesData ls) i := by
  refine BitVec.eq_of_getLsbD_eq fun j hj => ?_
  have hpos : 2 * (i + 1) + j = 2 * i + j + 2 := by omega
  simp [dataLane, lanesData, hj, hpos, show 2 * i + j + 2 < 28 by omega, show 2 * i + j < 28 by omega]

/-- Lane i of the data of a list of lanes is its entry i, and zero past its end (R77). -/
theorem dataLane_lanesData (ls : List (BitVec 2)) {i : Nat} (hi : i < 14) :
    dataLane (lanesData ls) i = ls.getD i 0 := by
  induction ls generalizing i with
  | nil => simp [dataLane, lanesData]
  | cons l ls ih =>
    cases i with
    | zero => exact dataLane_cons_zero l ls
    | succ i => rw [dataLane_cons_succ l ls hi, ih (by omega), List.getD_cons_succ]

theorem dataLane_lanesData_map (f : BitVec 2 → BitVec 2) (t : Vector (BitVec 2) 13) (i : Fin 13) :
    dataLane (lanesData (t.toList.map f)) i.val = f t[i] := by
  rw [dataLane_lanesData _ (by omega)]
  simp

theorem lanesData_map_high (f : BitVec 2 → BitVec 2) (t : Vector (BitVec 2) 13) :
    (lanesData (t.toList.map f)).extractLsb' 26 2 = 0 := by
  refine (dataLane_lanesData (t.toList.map f) (i := 13) (by decide)).trans ?_
  simp

theorem toNat_laneB2u (b : BitVec 2) : ((laneB2u b).toNat : Int) = max (-1) (min 1 b.toInt) + 1 := by
  revert b
  decide

theorem toInt_laneU2b (u : BitVec 2) : (laneU2b u).toInt = min 2 (u.toNat : Int) - 1 := by
  revert u
  decide

/-- Settles O24: lane i of the answer is the converter's lane i. -/
theorem tritConverterLanes : Obligations.TritConverterLanes := by
  refine fun t s =>
    ⟨⟨_, rfl, fun i => ?_, lanesData_map_high laneB2u t⟩, ⟨_, rfl, fun i => ?_, lanesData_map_high laneU2b t⟩⟩
  · rw [dataLane_lanesData_map, toNat_laneB2u]
  · rw [dataLane_lanesData_map, toInt_laneU2b]

/-! ### GF.ADD and GF.SUB -/

theorem fieldOp_of_le (op : Sym → Sym → Sym) {a b : BitVec 5} (ha : a.toNat ≤ 26) (hb : b.toNat ≤ 26) (s : State) :
    fieldOp op a b s =
      .next (s.answered (BitVec.ofNat 32 (op ⟨a.toNat, by omega⟩ ⟨b.toNat, by omega⟩).val)) := by
  have hx : symOperand a = some ⟨a.toNat, by omega⟩ := symOperand_eq_some.mpr rfl
  have hy : symOperand b = some ⟨b.toNat, by omega⟩ := symOperand_eq_some.mpr rfl
  simp only [fieldOp, hx, hy, respond_ok_eq_answered, ok_append_symData]

theorem fieldOp_of_not_le (op : Sym → Sym → Sym) {a b : BitVec 5} (h : ¬(a.toNat ≤ 26 ∧ b.toNat ≤ 26)) (s : State) :
    fieldOp op a b s = .next (s.faulted .badOperand 0x20000000#32) := by
  unfold fieldOp
  split
  · next x y hx hy =>
    have hx := symOperand_eq_some.mp hx
    have hy := symOperand_eq_some.mp hy
    omega
  · rw [raise_badOperand]

theorem dig_symOf_digits (d : Nat → Trit) {i : Nat} (hi : i < 3) : dig (symOf (d 0) (d 1) (d 2)) i = d i := by
  obtain ⟨h0, h1, h2⟩ := dig_symOf (d 0) (d 1) (d 2)
  interval_cases i
  exacts [h0, h1, h2]

theorem dig_gfAdd (a b : Sym) {i : Nat} (hi : i < 3) : dig (gfAdd a b) i = dig a i + dig b i :=
  dig_symOf_digits (fun i => dig a i + dig b i) hi

theorem dig_gfSub_add (a b : Sym) {i : Nat} (hi : i < 3) : dig (gfSub a b) i + dig b i = dig a i := by
  have hsub : dig (gfSub a b) i = dig a i - dig b i := dig_symOf_digits (fun i => dig a i - dig b i) hi
  rw [hsub, sub_add_cancel]

/-- Settles O30: `digit3` of a symbol is its trit, and the sum of two trits is the sum mod 3. -/
theorem gfAddSubDigitwise : Obligations.GfAddSubDigitwise := by
  intro a b s
  split
  · next h =>
    obtain ⟨ha, hb⟩ := h
    exact ⟨⟨_, by omega, fieldOp_of_le gfAdd ha hb s, fun i hi => congrArg Fin.val (dig_gfAdd _ _ hi)⟩,
      ⟨_, by omega, fieldOp_of_le gfSub ha hb s,
        fun i hi => congrArg Fin.val (dig_gfSub_add ⟨a.toNat, by omega⟩ ⟨b.toNat, by omega⟩ hi)⟩⟩
  · next h => exact ⟨fieldOp_of_not_le gfAdd h s, fieldOp_of_not_le gfSub h s⟩

/-! ### PIX.LD and PIX.RD -/

theorem pxOperand_ofNat (n : Fin 2) : pxOperand (BitVec.ofNat 1 n.val) = n := by
  revert n
  decide

theorem saturate_eq_self_iff (p : Pixel) :
    p.saturate = p ↔ p.y = p.saturate.y ∧ p.cb = p.saturate.cb ∧ p.cr = p.saturate.cr := by
  rw [eq_comm, Pixel.mk.injEq]

theorem exec_pixLd (n : Fin 2) (y : BitVec 9) (cb cr : BitVec 8) (s : State) :
    let p := (pixelOperand y cb cr).saturate
    exec (.pixLd (BitVec.ofNat 1 n.val) y cb cr) s =
      .next (State.answered { s with px := s.px.set n.val p }
        (if y.toInt = p.y ∧ cb.toInt = p.cb ∧ cr.toInt = p.cr then 0x00000000#32 else 0x00000001#32)) := by
  simp only [exec, execPixLd, pxOperand_ofNat, respond_ok_eq_answered, saturate_eq_self_iff, apply_ite (0x0#4 ++ ·)]
  rfl

/-- The fields of a response's data as R205 lays out a pixel, low bits last. -/
theorem pixelLayout_fields (z : BitVec 3) (y : BitVec 9) (cb cr : BitVec 8) :
    let d := z ++ y ++ cb ++ cr
    d.extractLsb' 25 3 = z ∧ d.extractLsb' 16 9 = y ∧ d.extractLsb' 8 8 = cb ∧ d.extractLsb' 0 8 = cr := by
  simp [-Nat.reduceAdd, BitVec.extractLsb'_append_eq_of_le, BitVec.extractLsb'_append_eq_right]

theorem toNat_ofInt_luma {y : Int} (h : 0 ≤ y) (h' : y ≤ 242) : ((BitVec.ofInt 9 y).toNat : Int) = y := by
  rw [BitVec.toNat_ofInt]
  omega

theorem toInt_ofInt_chroma {c : Int} (h : -40 ≤ c) (h' : c ≤ 40) : (BitVec.ofInt 8 c).toInt = c := by
  rw [BitVec.toInt_ofInt]
  exact Int.bmod_eq_of_le (by omega) (by omega)

/-- Settles O56: a load stores the saturated fields, and a register in range is read out as its layout holds it. -/
theorem pixLdAndRd : Obligations.PixLdAndRd := by
  refine ⟨fun n y cb cr s => ⟨_, exec_pixLd n y cb cr s, rfl, rfl, rfl⟩, fun n s hrange => ?_⟩
  obtain ⟨hy, hy', hcb, hcb', hcr, hcr'⟩ := hrange
  obtain ⟨hz, hfy, hfcb, hfcr⟩ :=
    pixelLayout_fields 0#3 (BitVec.ofInt 9 (s.px[n]).y) (BitVec.ofInt 8 (s.px[n]).cb) (BitVec.ofInt 8 (s.px[n]).cr)
  refine ⟨pixelData s.px[n], ?_, hz, ?_, ?_, ?_⟩
  · simp only [exec, execPixRd, pxOperand_ofNat, respond_ok_eq_answered, State.readPx]
  · rw [pixelData, hfy, toNat_ofInt_luma hy hy']
  · rw [pixelData, hfcb, toInt_ofInt_chroma hcb hcb']
  · rw [pixelData, hfcr, toInt_ofInt_chroma hcr hcr']

end Sys2Proof.Machine
end

section
/-! PROOFS. The trit converter and the base-243 packer (spec/40_trit_pack.md): the converters undo each other, PACK243
and UNPK243 answer the value and the digits of a group and undo each other, and a host packs a vector of any length.

Everything goes through the list of a group's trits. The lanes PACK243 accepts are those that hold such a list
(`exists_tritLanes_of_holdsGroup`, `groupOperand_tritLanes`); `exec_pack243_tritLanes` and `exec_unpk243_digits` say
what the two commands then answer, and `tritsValue_digits` and `digits_tritsValue` that value and digits undo each
other. A vector is taken group by group (`tritGroups_induction`). -/

namespace Sys2Proof.Machine

/-! ### The digits of a value and the value of digits -/

theorem digits_succ (v n : Nat) : digits v (n + 1) = tritOf v :: digits (v / 3) n := by
  simp [digits, List.range_succ_eq_map, Function.comp_def, Nat.pow_succ', Nat.div_div_eq_div_mul]

@[simp] theorem length_digits (v n : Nat) : (digits v n).length = n := by simp [digits]

theorem tritOf_val_add (t : Trit) (n : Nat) : tritOf (t.val + 3 * n) = t := Fin.ext (by simp [tritOf])

theorem tritOf_val (t : Trit) : tritOf t.val = t := tritOf_val_add t 0

theorem tritsValue_digits {v n : Nat} (h : v < 3 ^ n) : tritsValue (digits v n) = v := by
  induction n generalizing v with
  | zero => exact (Nat.lt_one_iff.mp h).symm
  | succ n ih =>
    have hdiv : v / 3 < 3 ^ n := Nat.div_lt_of_lt_mul (by rwa [← Nat.pow_succ'])
    rw [digits_succ, tritsValue, ih hdiv]
    exact Nat.mod_add_div v 3

theorem digits_tritsValue (ts : List Trit) : digits (tritsValue ts) ts.length = ts := by
  induction ts with
  | nil => rfl
  | cons t ts ih =>
    have hdiv : (t.val + 3 * tritsValue ts) / 3 = tritsValue ts := by omega
    rw [List.length_cons, digits_succ, tritsValue, tritOf_val_add, hdiv, ih]

/-- R104's sum, for a list of at most n trits. -/
theorem tritsValue_eq_sum {ts : List Trit} {n : Nat} (h : ts.length ≤ n) :
    tritsValue ts = ∑ i ∈ Finset.range n, 3 ^ i * (ts.getD i 0).val := by
  induction ts generalizing n with
  | nil => simp [tritsValue]
  | cons t ts ih =>
    obtain ⟨m, rfl⟩ : ∃ m, n = m + 1 := ⟨n - 1, by rw [List.length_cons] at h; omega⟩
    rw [Finset.sum_range_succ', tritsValue, ih (by simpa using h), Finset.mul_sum]
    simp [Nat.pow_succ', Nat.mul_assoc, Nat.add_comm]

theorem getD_digits_val (v n i : Nat) : ((digits v n).getD i 0).val = if i < n then digit3 v i else 0 := by
  split
  · next h => simp [digits, h, tritOf, digit3]
  · next h => simp [digits, h]

/-! ### A group of trits as lanes -/

/-- The lanes of a PACK243 group: its trits in order, and zero past its end (R105). -/
def tritLanes (ts : List Trit) : Vector (BitVec 2) 5 := Vector.ofFn fun i => BitVec.ofNat 2 (ts.getD i.val 0).val

theorem toNat_ofNat_trit (t : Trit) : (BitVec.ofNat 2 t.val).toNat = t.val := by
  rw [BitVec.toNat_ofNat]
  omega

theorem getElem_tritLanes (ts : List Trit) {i : Nat} (hi : i < 5) :
    (tritLanes ts)[i] = BitVec.ofNat 2 (ts.getD i 0).val := by simp [tritLanes]

theorem toNat_tritLanes (ts : List Trit) {i : Nat} (hi : i < 5) : ((tritLanes ts)[i]).toNat = (ts.getD i 0).val := by
  rw [getElem_tritLanes ts hi, toNat_ofNat_trit]

theorem toList_tritLanes {ts : List Trit} (h : ts.length ≤ 5) :
    (tritLanes ts).toList = ts.map (fun t => BitVec.ofNat 2 t.val) ++ List.replicate (5 - ts.length) 0 := by
  refine List.ext_getElem (by simp [h]) fun i _ _ => ?_
  rcases Nat.lt_or_ge i ts.length with hi | hi <;> simp [tritLanes, hi, Nat.not_lt.mpr]

/-- A group of at most five trits is read back from its lanes. -/
theorem groupOperand_tritLanes {ts : List Trit} (h : ts.length ≤ 5) :
    groupOperand ts.length (tritLanes ts) = some ts := by
  have hid : (fun f : BitVec 2 => tritOf f.toNat) ∘ (fun t : Trit => BitVec.ofNat 2 t.val) = id :=
    funext fun t => (congrArg tritOf (toNat_ofNat_trit t)).trans (tritOf_val t)
  rw [groupOperand_eq_some, toList_tritLanes h]
  refine ⟨?_, ?_, ?_⟩
  · have hne : ∀ t : Trit, (BitVec.ofNat 2 t.val).toNat ≠ 3 := by decide
    simpa using fun t _ => hne t
  · simp
  · simp [hid]

/-- The lanes PACK243 accepts for a group of n trits (R105). -/
def HoldsGroup (n : Nat) (t : Vector (BitVec 2) 5) : Prop :=
  ∀ i : Fin 5, (i.val < n → (t[i]).toNat ≠ 3) ∧ (n ≤ i.val → (t[i]).toNat = 0)

theorem holdsGroup_of_groupOperand {n : Nat} {t : Vector (BitVec 2) 5} {ts : List Trit}
    (h : groupOperand n t = some ts) : HoldsGroup n t := by
  obtain ⟨htake, hdrop, -⟩ := groupOperand_eq_some.mp h
  refine fun i => ⟨fun hi => htake _ ?_, fun hi => hdrop _ ?_⟩
  · exact List.mem_take_iff_getElem.mpr ⟨i, by simp [hi], by simp⟩
  · exact List.mem_drop_iff_getElem.mpr ⟨i - n, by rw [Vector.length_toList]; omega, by simp [hi]⟩

theorem exists_tritLanes_of_holdsGroup {n : Nat} {t : Vector (BitVec 2) 5} (hn : n ≤ 5) (h : HoldsGroup n t) :
    ∃ ts, ts.length = n ∧ t = tritLanes ts := by
  refine ⟨(t.toList.take n).map fun f => tritOf f.toNat, by simp [hn],
    Vector.ext fun i hi => BitVec.eq_of_toNat_eq ?_⟩
  obtain ⟨htrit, hzero⟩ := h ⟨i, hi⟩
  rw [toNat_tritLanes _ hi]
  rcases Nat.lt_or_ge i n with hin | hin
  · have h3 : (t[i]).toNat < 3 := by
      have hne : (t[i]).toNat ≠ 3 := htrit hin
      omega
    simp [hin, hi, tritOf, Nat.mod_eq_of_lt h3]
  · simpa [hin] using hzero hin

theorem groupLanes_eq_true {k : BitVec 3} {t : Vector (BitVec 2) 5} :
    WellFormed.groupLanes k t = true ↔ HoldsGroup k.toNat t := by
  simp only [WellFormed.groupLanes, List.all_eq_true, List.mem_finRange, true_implies, HoldsGroup]
  refine forall_congr' fun i => ?_
  have hlt := (t[i]).isLt
  split
  · next hi =>
    rw [WellFormed.tritField, decide_eq_true_eq]
    omega
  · next hi =>
    rw [beq_iff_eq, BitVec.toNat_eq]
    simp [hi, Nat.le_of_not_lt hi]

theorem wellFormed_pack243_iff {k : BitVec 3} {t : Vector (BitVec 2) 5} :
    (Instr.pack243 k t).wellFormed = true ↔ (1 ≤ k.toNat ∧ k.toNat ≤ 5) ∧ HoldsGroup k.toNat t := by
  simp only [Instr.wellFormed, WellFormed.groupCount, Bool.and_eq_true, decide_eq_true_eq, groupLanes_eq_true]

theorem wellFormed_unpk243_iff {k : BitVec 3} {b : Byte} :
    (Instr.unpk243 k b).wellFormed = true ↔ 1 ≤ k.toNat ∧ k.toNat ≤ 5 ∧ b.toNat < 3 ^ k.toNat := by
  simp only [Instr.wellFormed, WellFormed.groupCount, WellFormed.groupByte, Bool.and_eq_true, decide_eq_true_eq,
    and_assoc]

/-- The value of a group is at most 242 (R104). -/
theorem tritsValue_lt_of_length_le {ts : List Trit} (h : ts.length ≤ 5) : tritsValue ts < 243 :=
  (tritsValue_lt ts).trans_le (Nat.pow_le_pow_right (by decide) h)

/-! ### What PACK243 and UNPK243 answer -/

theorem exec_pack243_tritLanes {k : BitVec 3} {ts : List Trit} (hk : 1 ≤ k.toNat) (hk5 : k.toNat ≤ 5)
    (hts : ts.length = k.toNat) (s : State) :
    exec (.pack243 k (tritLanes ts)) s = .next (s.answered (BitVec.ofNat 32 (tritsValue ts))) := by
  have hlt := tritsValue_lt_of_length_le (hts ▸ hk5)
  have hgroup : groupOperand k.toNat (tritLanes ts) = some ts := hts ▸ groupOperand_tritLanes (hts ▸ hk5)
  simp only [exec, execPack243, countOperand_eq_some.mpr ⟨hk, hk5, rfl⟩, hgroup, respond_ok_eq_answered,
    ok_append_ofNat (show tritsValue ts < 2 ^ 28 by omega)]

theorem exec_pack243_badOperand {k : BitVec 3} {t : Vector (BitVec 2) 5}
    (h : ¬((1 ≤ k.toNat ∧ k.toNat ≤ 5) ∧ HoldsGroup k.toNat t)) (s : State) :
    exec (.pack243 k t) s = .next (s.faulted .badOperand 0x20000000#32) := by
  simp only [exec, execPack243]
  cases hn : countOperand k with
  | none => rw [raise_badOperand]
  | some n =>
    obtain ⟨hk, hk5, rfl⟩ := countOperand_eq_some.mp hn
    dsimp only
    cases hg : groupOperand k.toNat t with
    | none => rw [raise_badOperand]
    | some ts => exact absurd ⟨⟨hk, hk5⟩, holdsGroup_of_groupOperand hg⟩ h

theorem exec_unpk243_digits {k : BitVec 3} {v : Byte} (hk : 1 ≤ k.toNat) (hk5 : k.toNat ≤ 5)
    (hv : v.toNat < 3 ^ k.toNat) (s : State) :
    exec (.unpk243 k v) s = .next (s.answered (0x0#4 ++ tritsData (digits v.toNat k.toNat))) := by
  simp only [exec, execUnpk243, countOperand_eq_some.mpr ⟨hk, hk5, rfl⟩, Nat.not_le.mpr hv, if_false,
    respond_ok_eq_answered]

theorem exec_unpk243_badOperand {k : BitVec 3} {v : Byte}
    (h : ¬(1 ≤ k.toNat ∧ k.toNat ≤ 5 ∧ v.toNat < 3 ^ k.toNat)) (s : State) :
    exec (.unpk243 k v) s = .next (s.faulted .badOperand 0x20000000#32) := by
  simp only [exec, execUnpk243]
  cases hn : countOperand k with
  | none => rw [raise_badOperand]
  | some n =>
    obtain ⟨hk, hk5, rfl⟩ := countOperand_eq_some.mp hn
    have hv : 3 ^ k.toNat ≤ v.toNat := by_contra fun hc => h ⟨hk, hk5, Nat.not_le.mp hc⟩
    simp only [hv, if_true, raise_badOperand]

/-- Lane i of trits as response data is trit i, and zero past the end (R72, R77). -/
theorem dataLane_tritsData (ts : List Trit) {i : Nat} (hi : i < 14) :
    dataLane (tritsData ts) i = BitVec.ofNat 2 (ts.getD i 0).val := by
  rw [tritsData, dataLane_lanesData _ hi]
  exact List.getD_map ts 0 fun t : Trit => BitVec.ofNat 2 t.val

theorem ofFn_dataLane_tritsData (ts : List Trit) :
    (Vector.ofFn fun i : Fin 5 => dataLane (tritsData ts) i.val) = tritLanes ts :=
  congrArg Vector.ofFn (funext fun i => dataLane_tritsData ts (by omega))

theorem toNat_packedByte {ts : List Trit} (h : ts.length ≤ 5) :
    (BitVec.ofNat 8 (tritsValue ts)).toNat = tritsValue ts := by
  have hlt := tritsValue_lt_of_length_le h
  rw [BitVec.toNat_ofNat, Nat.mod_eq_of_lt (by omega)]

theorem setWidth_packedByte {ts : List Trit} (h : ts.length ≤ 5) :
    (BitVec.ofNat 8 (tritsValue ts)).setWidth 32 = BitVec.ofNat 32 (tritsValue ts) := by
  rw [← BitVec.ofNat_toNat, toNat_packedByte h]

/-! ### The statements about one command -/

/-- Settles O26: the lanes hold a group of trits, whose value is the sum, or are refused. -/
theorem pack243Result : Obligations.Pack243Result := by
  intro k t s
  split
  case isFalse h => exact exec_pack243_badOperand h s
  case isTrue h =>
    obtain ⟨⟨hk, hk5⟩, hgroup⟩ := h
    obtain ⟨ts, hts, rfl⟩ := exists_tritLanes_of_holdsGroup hk5 hgroup
    rw [exec_pack243_tritLanes hk hk5 hts, tritsValue_eq_sum (hts ▸ hk5)]
    simp [toNat_tritLanes, Finset.sum_range_succ]

/-- Settles O27: lane i of the answer is digit i, and zero past the count. -/
theorem unpk243Result : Obligations.Unpk243Result := by
  intro k v s
  split
  case isFalse h => exact exec_unpk243_badOperand h s
  case isTrue h =>
    obtain ⟨hk, hk5, hv⟩ := h
    refine ⟨_, exec_unpk243_digits hk hk5 hv s, fun i hi => ?_⟩
    rw [dataLane_tritsData _ hi, toNat_ofNat_trit, getD_digits_val]

/-- Settles O28: the lanes and the answer hold the same list of trits, and the byte is its value. -/
theorem packUnpackInverse : Obligations.PackUnpackInverse := by
  refine ⟨fun k t s hwf => ?_, fun k b s hwf => ?_⟩
  · obtain ⟨⟨hk, hk5⟩, hgroup⟩ := wellFormed_pack243_iff.mp hwf
    obtain ⟨ts, hts, rfl⟩ := exists_tritLanes_of_holdsGroup hk5 hgroup
    have hbyte := toNat_packedByte (hts ▸ hk5)
    have hlt : (BitVec.ofNat 8 (tritsValue ts)).toNat < 3 ^ k.toNat := by
      rw [hbyte, ← hts]
      exact tritsValue_lt ts
    refine ⟨_, tritsData ts, ?_, hlt, ?_, fun i => ?_⟩
    · rw [setWidth_packedByte (hts ▸ hk5)]
      exact exec_pack243_tritLanes hk hk5 hts s
    · rw [exec_unpk243_digits hk hk5 hlt, hbyte, ← hts, digits_tritsValue]
    · exact (dataLane_tritsData ts (by omega)).trans (getElem_tritLanes ts i.isLt).symm
  · obtain ⟨hk, hk5, hb⟩ := wellFormed_unpk243_iff.mp hwf
    refine ⟨_, exec_unpk243_digits hk hk5 hb s, ?_⟩
    rw [ofFn_dataLane_tritsData, exec_pack243_tritLanes hk hk5 (length_digits _ _), tritsValue_digits hb,
      BitVec.ofNat_toNat]

/-! ### The converters on lanes that hold trits -/

theorem dataLanes_lanesData_map (f : BitVec 2 → BitVec 2) (t : Vector (BitVec 2) 13) :
    dataLanes (lanesData (t.toList.map f)) = t.map f := by
  refine Vector.ext fun i hi => ?_
  simpa [dataLanes] using dataLane_lanesData_map f t ⟨i, hi⟩

theorem laneU2b_laneB2u {b : BitVec 2} (h : b ≠ 0b10#2) : laneU2b (laneB2u b) = b := by
  revert b
  decide

theorem laneB2u_laneU2b {u : BitVec 2} (h : u ≠ 0b11#2) : laneB2u (laneU2b u) = u := by
  revert u
  decide

theorem dataLanes_converted_back {f g : BitVec 2 → BitVec 2} {t : Vector (BitVec 2) 13}
    (h : ∀ i : Fin 13, g (f t[i]) = t[i]) :
    dataLanes (lanesData ((dataLanes (lanesData (t.toList.map f))).toList.map g)) = t := by
  rw [dataLanes_lanesData_map, dataLanes_lanesData_map]
  exact Vector.ext fun i hi => by simpa using h ⟨i, hi⟩

/-- Settles O25: each lane is converted and converted back. -/
theorem tritConvertersInvert : Obligations.TritConvertersInvert := fun _ _ =>
  ⟨fun h => ⟨_, _, rfl, rfl, dataLanes_converted_back fun i => laneU2b_laneB2u (h i)⟩,
    fun h => ⟨_, _, rfl, rfl, dataLanes_converted_back fun i => laneB2u_laneU2b (h i)⟩⟩

/-! ### Vectors of any length -/

/-- A vector is empty, or one short group, or a full group and a vector (R107). -/
theorem tritGroups_induction {motive : List Trit → Prop} (nil : motive [])
    (short : ∀ g : List Trit, 0 < g.length → g.length < 5 → tritGroups g = [g] → motive g)
    (full : ∀ g rest : List Trit, g.length = 5 → tritGroups (g ++ rest) = g :: tritGroups rest → motive rest →
      motive (g ++ rest)) (v : List Trit) : motive v := by
  induction v using tritGroups.induct with
  | case1 a b c d e rest ih => exact full [a, b, c, d, e] rest rfl (by simp [tritGroups]) ih
  | case2 => exact nil
  | case3 v hfull hnil =>
    have hlt : v.length < 5 := by
      match v, hfull with
      | [], _ | [_], _ | [_, _], _ | [_, _, _], _ | [_, _, _, _], _ => simp
      | a :: b :: c :: d :: e :: rest, h => exact (h a b c d e rest rfl).elim
    exact short v (List.length_pos_iff.mpr hnil) hlt (by rw [tritGroups] <;> assumption)

theorem length_of_mem_tritGroups {v g : List Trit} (h : g ∈ tritGroups v) : 1 ≤ g.length ∧ g.length ≤ 5 := by
  induction v using tritGroups_induction with
  | nil => simp [tritGroups] at h
  | short v hpos hlt hv =>
    obtain rfl : g = v := by simpa [hv] using h
    omega
  | full g' rest hlen hv ih =>
    rw [hv, List.mem_cons] at h
    rcases h with rfl | h
    · omega
    · exact ih h

theorem length_tritGroups (v : List Trit) : (tritGroups v).length = (v.length + 4) / 5 := by
  induction v using tritGroups_induction with
  | nil => rfl
  | short v hpos hlt hv =>
    rw [hv, List.length_singleton]
    omega
  | full g rest hlen hv ih =>
    rw [hv, List.length_cons, ih, List.length_append]
    omega

/-- Only the last group can be short, and then holds what is left (R107). -/
theorem length_last_tritGroup {v g : List Trit} (h : (tritGroups v).getLast? = some g) (hmod : v.length % 5 ≠ 0) :
    g.length = v.length % 5 := by
  induction v using tritGroups_induction with
  | nil => simp [tritGroups] at h
  | short v hpos hlt hv =>
    obtain rfl : v = g := by simpa [hv] using h
    omega
  | full g' rest hlen hv ih =>
    have hlength : (g' ++ rest).length % 5 = rest.length % 5 := by simp [hlen]
    rw [hlength] at hmod ⊢
    refine ih ?_ hmod
    have hne : tritGroups rest ≠ [] := List.length_pos_iff.mp (by rw [length_tritGroups]; omega)
    obtain ⟨g₁, gs, hgs⟩ := List.exists_cons_of_ne_nil hne
    rwa [hv, hgs, List.getLast?_cons_cons, ← hgs] at h

/-- A byte that holds the next group of a vector unpacks to that group (R107). -/
theorem unpackVector_packedByte_cons {g rest : List Trit} {bs : List Byte} {n : Nat} (hpos : 0 < g.length)
    (hn : min n 5 = g.length) (h : unpackVector bs (n - 5) = some rest) :
    unpackVector (BitVec.ofNat 8 (tritsValue g) :: bs) n = some (g ++ rest) := by
  have hbyte := toNat_packedByte (show g.length ≤ 5 by omega)
  refine unpackVector_cons_eq_some.mpr ⟨by omega, ?_, rest, h, ?_⟩
  · rw [hbyte, hn]
    exact tritsValue_lt g
  · rw [hbyte, hn, digits_tritsValue]

theorem unpackVector_packVector (v : List Trit) : unpackVector (packVector v) v.length = some v := by
  induction v using tritGroups_induction with
  | nil => rfl
  | short v hpos hlt hv =>
    have hnil : unpackVector [] (v.length - 5) = some [] := if_pos (by omega)
    simpa [packVector, hv] using unpackVector_packedByte_cons hpos (by omega) hnil
  | full g rest hlen hv ih =>
    have hrest : unpackVector (packVector rest) ((g ++ rest).length - 5) = some rest := by simpa [hlen] using ih
    rw [packVector, hv, List.map_cons]
    exact unpackVector_packedByte_cons (by omega) (by simp [hlen]) hrest

theorem exec_packCommand {g : List Trit} (h : 1 ≤ g.length) (h5 : g.length ≤ 5) (s : State) :
    exec (packCommand g) s = .next (s.answered ((BitVec.ofNat 8 (tritsValue g)).setWidth 32)) := by
  have hk : (BitVec.ofNat 3 g.length).toNat = g.length := by
    rw [BitVec.toNat_ofNat]
    omega
  rw [setWidth_packedByte h5]
  exact exec_pack243_tritLanes (hk.symm ▸ h) (hk.symm ▸ h5) hk.symm s

theorem execAll_map_packCommand {gs : List (List Trit)} (h : ∀ g ∈ gs, 1 ≤ g.length ∧ g.length ≤ 5) (s : State) :
    execAll (gs.map packCommand) s =
      .next { s with
        responses := s.responses ++ gs.map fun g => (BitVec.ofNat 8 (tritsValue g)).setWidth 32 } := by
  induction gs generalizing s with
  | nil => simp [execAll]
  | cons g gs ih =>
    obtain ⟨⟨hpos, hle⟩, hgs⟩ := List.forall_mem_cons.mp h
    simp [execAll, exec_packCommand hpos hle, ih hgs, State.answered]

/-- Settles O29: each group is packed by its command, and only the last one can be short. -/
theorem hostVectorRoundTrip : Obligations.HostVectorRoundTrip := by
  refine fun v s => ⟨?_, ?_, ?_, ?_, unpackVector_packVector v⟩
  · rw [packCommands, execAll_map_packCommand (fun g => length_of_mem_tritGroups)]
    simp [packVector]
  · simp [packVector, length_tritGroups]
  · intro b hb
    obtain ⟨g, hg, rfl⟩ := List.mem_map.mp hb
    obtain ⟨-, hle⟩ := length_of_mem_tritGroups hg
    rw [toNat_packedByte hle]
    exact Nat.le_of_lt_succ (tritsValue_lt_of_length_le hle)
  · intro b hb hmod
    rw [packVector, List.getLast?_map, Option.map_eq_some_iff] at hb
    obtain ⟨g, hg, rfl⟩ := hb
    have hlen := length_last_tritGroup hg hmod
    rw [toNat_packedByte (by omega), ← hlen]
    exact tritsValue_lt g

end Sys2Proof.Machine
end

section
/-! PROOFS. The field GF(27) (spec/41_gf27.md): GF.MUL, GF.INV and GF.POWA, the field laws, and the agreement of the
constant tables.

The table of R136 is compared once with R123's product of digit polynomials (`gfMul_eq_symOf`); the ring laws are then
identities between trits, digit by digit, which `grind` closes in the ring `Fin 3`. EXP is compared once with the powers
of α = 3 (`gfPow_three_eq_alphaPow`), and LOG once with EXP (`gfLog_eq_some_iff`); a product of non-zero symbols is then
a power of α whose exponent is the sum of two logarithms. -/

namespace Sys2Proof.Machine

/-! ### The digits of a product -/

theorem sym_ext {a b : Sym} (h : ∀ i < 3, dig a i = dig b i) : a = b := by
  rw [← symOf_dig a, ← symOf_dig b, h 0 (by decide), h 1 (by decide), h 2 (by decide)]

theorem val_dig (a : Sym) (i : Nat) : (dig a i).val = digit3 a.val i := rfl

theorem dig_zero (i : Nat) : dig 0 i = 0 := Fin.ext (by simp [dig])

/-- R123's closed form, its coefficients p0 to p4 written in trits. -/
theorem gfMul_eq_symOf (a b : Sym) :
    gfMul a b = symOf (dig a 0 * dig b 0 + 2 * (dig a 1 * dig b 2 + dig a 2 * dig b 1))
      (dig a 0 * dig b 1 + dig a 1 * dig b 0 + (dig a 1 * dig b 2 + dig a 2 * dig b 1) + 2 * (dig a 2 * dig b 2))
      (dig a 0 * dig b 2 + dig a 1 * dig b 1 + dig a 2 * dig b 0 + dig a 2 * dig b 2) := by
  revert a b
  decide

theorem dig_gfMul (a b : Sym) :
    dig (gfMul a b) 0 = dig a 0 * dig b 0 + 2 * (dig a 1 * dig b 2 + dig a 2 * dig b 1) ∧
    dig (gfMul a b) 1 = dig a 0 * dig b 1 + dig a 1 * dig b 0 + (dig a 1 * dig b 2 + dig a 2 * dig b 1) +
      2 * (dig a 2 * dig b 2) ∧
    dig (gfMul a b) 2 = dig a 0 * dig b 2 + dig a 1 * dig b 1 + dig a 2 * dig b 0 + dig a 2 * dig b 2 := by
  rw [gfMul_eq_symOf]
  exact dig_symOf _ _ _

/-! ### The ring laws -/

theorem gfAdd_comm (a b : Sym) : gfAdd a b = gfAdd b a :=
  sym_ext fun i hi => by rw [dig_gfAdd _ _ hi, dig_gfAdd _ _ hi, add_comm]

theorem gfAdd_assoc (a b c : Sym) : gfAdd (gfAdd a b) c = gfAdd a (gfAdd b c) :=
  sym_ext fun i hi => by simp only [dig_gfAdd _ _ hi, add_assoc]

theorem gfAdd_zero (a : Sym) : gfAdd a 0 = a :=
  sym_ext fun i hi => by rw [dig_gfAdd _ _ hi, dig_zero, add_zero]

theorem gfAdd_gfNeg (a : Sym) : gfAdd a (gfNeg a) = 0 :=
  sym_ext fun i hi => by rw [dig_gfAdd _ _ hi, add_comm, gfNeg, dig_gfSub_add _ _ hi]

/-- R129 (c): characteristic 3, as it is in each digit. -/
theorem gfAdd_self_self (a : Sym) : gfAdd (gfAdd a a) a = 0 := by
  have htrit : ∀ t : Trit, t + t + t = 0 := by decide
  exact sym_ext fun i hi => by rw [dig_gfAdd _ _ hi, dig_gfAdd _ _ hi, htrit, dig_zero]

theorem gfMul_comm (a b : Sym) : gfMul a b = gfMul b a := by
  refine sym_ext fun i hi => ?_
  interval_cases i <;> simp only [dig_gfMul] <;> grind

theorem gfMul_assoc (a b c : Sym) : gfMul (gfMul a b) c = gfMul a (gfMul b c) := by
  refine sym_ext fun i hi => ?_
  interval_cases i <;> simp only [dig_gfMul] <;> grind

theorem gfMul_gfAdd (a b c : Sym) : gfMul a (gfAdd b c) = gfAdd (gfMul a b) (gfMul a c) := by
  refine sym_ext fun i hi => ?_
  rw [dig_gfAdd _ _ hi]
  interval_cases i <;> simp (disch := decide) only [dig_gfMul, dig_gfAdd] <;> grind

theorem gfMul_one (a : Sym) : gfMul a 1 = a := by
  revert a
  decide

theorem gfMul_zero (a : Sym) : gfMul a 0 = 0 := by
  revert a
  decide

/-- R129 (d): the third power is additive. -/
theorem gfPow_three_gfAdd (a b : Sym) : gfPow (gfAdd a b) 3 = gfAdd (gfPow a 3) (gfPow b 3) := by
  refine sym_ext fun i hi => ?_
  simp only [gfPow, gfMul_comm 1, gfMul_one, dig_gfAdd _ _ hi]
  interval_cases i <;> simp (disch := decide) only [dig_gfMul, dig_gfAdd] <;> grind

/-- R129 (e): the symbols 0, 1 and 2 multiply as trits. -/
theorem val_gfMul_of_le_two {a b : Sym} (ha : a.val ≤ 2) (hb : b.val ≤ 2) : (gfMul a b).val = a.val * b.val % 3 := by
  revert a b
  decide

/-! ### Inverses -/

theorem gfMul_gfInv {a : Sym} (h : a ≠ 0) : gfMul a (gfInv a) = 1 := by
  revert a
  decide

theorem gfMul_left_cancel {a b c : Sym} (ha : a ≠ 0) (h : gfMul a b = gfMul a c) : b = c := by
  have hcancel (x : Sym) : gfMul (gfInv a) (gfMul a x) = x := by
    rw [← gfMul_assoc, gfMul_comm (gfInv a), gfMul_gfInv ha, gfMul_comm, gfMul_one]
  rw [← hcancel b, h, hcancel c]

theorem gfMul_eq_zero_iff {a b : Sym} : gfMul a b = 0 ↔ a = 0 ∨ b = 0 := by
  refine ⟨fun h => or_iff_not_imp_left.mpr fun ha => gfMul_left_cancel ha (h.trans (gfMul_zero a).symm), ?_⟩
  rintro (rfl | rfl)
  · rw [gfMul_comm, gfMul_zero]
  · exact gfMul_zero a

/-! ### Powers of α and the tables EXP, LOG and INV -/

theorem gfPow_add (v : Sym) (i j : Nat) : gfPow v (i + j) = gfMul (gfPow v i) (gfPow v j) := by
  induction j with
  | zero => exact (gfMul_one _).symm
  | succ j ih => rw [← Nat.add_assoc, gfPow, ih, gfPow, gfMul_assoc]

theorem alphaPow_mod (e : Nat) : alphaPow (e % 26) = alphaPow e := by rw [alphaPow, Nat.mod_mod, ← alphaPow]

/-- EXP continues by a factor α, and from entry 25 back to entry 0 (R125). -/
theorem alphaPow_succ (e : Nat) : alphaPow (e + 1) = gfMul (alphaPow e) 3 := by
  have hperiod : ∀ r < 26, alphaPow (r + 1) = gfMul (alphaPow r) 3 := by decide
  calc alphaPow (e + 1) = alphaPow (e % 26 + 1) := by rw [← alphaPow_mod, ← Nat.mod_add_mod, alphaPow_mod]
    _ = gfMul (alphaPow (e % 26)) 3 := hperiod _ (Nat.mod_lt _ (by decide))
    _ = gfMul (alphaPow e) 3 := by rw [alphaPow_mod]

theorem gfPow_three_eq_alphaPow (e : Nat) : gfPow 3 e = alphaPow e := by
  induction e with
  | zero => rfl
  | succ e ih => rw [gfPow, ih, alphaPow_succ]

theorem gfPow_three_mod (e : Nat) : gfPow 3 (e % 26) = gfPow 3 e := by
  simp only [gfPow_three_eq_alphaPow, alphaPow_mod]

theorem gfPow_three_ne_zero (e : Nat) : gfPow 3 e ≠ 0 := by
  have hperiod : ∀ r < 26, alphaPow r ≠ 0 := by decide
  rw [← gfPow_three_mod, gfPow_three_eq_alphaPow]
  exact hperiod _ (Nat.mod_lt _ (by decide))

theorem expTable_getElem? {e : Nat} (h : e < 78) : expTable[e]? = some (gfPow 3 e).val := by
  rw [gfPow_three_eq_alphaPow]
  revert e
  decide

theorem logTable_getElem? {a : Sym} (h : a ≠ 0) : logTable[a.val - 1]? = gfLog a := (if_neg h).symm

/-- R126: the logarithm of a symbol is the exponent below 26 of the power of α it is. -/
theorem gfLog_eq_some_iff {a : Sym} {e : Nat} : gfLog a = some e ↔ e < 26 ∧ gfPow 3 e = a := by
  have hexp : ∀ x : Sym, ∀ e ∈ gfLog x, e < 26 ∧ alphaPow e = x := by decide
  have hlog : ∀ e < 26, gfLog (alphaPow e) = some e := by decide
  rw [gfPow_three_eq_alphaPow]
  refine ⟨hexp a e, ?_⟩
  rintro ⟨he, rfl⟩
  exact hlog e he

theorem exists_gfLog {a : Sym} (h : a ≠ 0) : ∃ e, gfLog a = some e := by
  have hsome : ∀ x : Sym, x ≠ 0 → (gfLog x).isSome := by decide
  exact Option.isSome_iff_exists.mp (hsome a h)

/-- R127: the product of non-zero symbols through their logarithms. -/
theorem gfMul_of_gfLog {a b : Sym} {i j : Nat} (ha : gfLog a = some i) (hb : gfLog b = some j) :
    gfMul a b = gfPow 3 (i + j) := by
  obtain ⟨-, rfl⟩ := gfLog_eq_some_iff.mp ha
  obtain ⟨-, rfl⟩ := gfLog_eq_some_iff.mp hb
  exact (gfPow_add 3 i j).symm

/-- R127: the inverse through the logarithm. -/
theorem gfInv_of_gfLog {a : Sym} {e : Nat} (h : gfLog a = some e) : gfInv a = gfPow 3 ((26 - e) % 26) := by
  obtain ⟨he, rfl⟩ := gfLog_eq_some_iff.mp h
  have hpow : gfMul (gfPow 3 e) (gfPow 3 (26 - e)) = 1 := by
    rw [← gfPow_add, Nat.add_sub_cancel' he.le, ← gfPow_three_mod]
    rfl
  rw [gfPow_three_mod]
  exact gfMul_left_cancel (gfPow_three_ne_zero e) ((gfMul_gfInv (gfPow_three_ne_zero e)).trans hpow.symm)

theorem invTable_getElem? (a : Sym) : invTable[a.val]? = some (gfInv a).val := by
  revert a
  decide

/-! ### The statements -/

/-- Settles O33: EXP at e mod 26 is the power e. -/
theorem gfPowaIsPower : Obligations.GfPowaIsPower := fun e s => by
  simp only [exec, execGfPowa, respond_ok_eq_answered, ok_append_symData, gfPow_three_eq_alphaPow]

/-- Settles O31: the closed form digit by digit, and the sum of the logarithms. -/
theorem gfMulClosedForm : Obligations.GfMulClosedForm := by
  refine ⟨fun a b => ⟨?_, ?_⟩, fun a b s => ?_⟩
  · rw [gfMul_eq_symOf]
    simp [symOf, val_dig, Fin.val_add, Fin.val_mul]
  · split
    · next h => rw [gfMul_eq_zero_iff.mpr h, Fin.val_zero]
    · next h =>
      obtain ⟨ha, hb⟩ := not_or.mp h
      obtain ⟨i, hi⟩ := exists_gfLog ha
      obtain ⟨j, hj⟩ := exists_gfLog hb
      obtain ⟨hi26, -⟩ := gfLog_eq_some_iff.mp hi
      obtain ⟨hj26, -⟩ := gfLog_eq_some_iff.mp hj
      simp [gfMul_of_gfLog hi hj, logTable_getElem?, ha, hb, hi, hj, expTable_getElem? (show i + j < 78 by omega)]
  · split
    · next h =>
      obtain ⟨ha, hb⟩ := h
      exact fieldOp_of_le gfMul (Nat.le_of_lt_succ ha) (Nat.le_of_lt_succ hb) s
    · next h => exact fieldOp_of_not_le gfMul (by omega) s

/-- Settles O32: INV answers, and the flag is set exactly for operand 0. -/
theorem gfInvInverts : Obligations.GfInvInverts := by
  intro a s
  split
  case isFalse h =>
    exact (execGfInv_of_none (symOperand_eq_none.mpr (by omega)) s).trans (congrArg _ (raise_badOperand s))
  case isTrue h =>
    have hx : symOperand a = some ⟨a.toNat, h⟩ := symOperand_eq_some.mpr rfl
    have hexec := execGfInv_of_some hx s
    rw [respond_ok_eq_answered, ok_append_symData, Status.withInverted, symOperand_beq_zero hx] at hexec
    split
    · next h0 =>
      subst h0
      exact hexec
    · next h0 =>
      have hbeq : (a == 0) = false := beq_eq_false_iff_ne.mpr h0
      rw [hbeq, Bool.false_or] at hexec
      exact ⟨_, hexec, gfMul_gfInv (beq_eq_false_iff_ne.mp ((symOperand_beq_zero hx).trans hbeq))⟩

/-- Settles O34: the ring laws digit by digit, and the non-zero symbols as powers of α. -/
theorem fieldLaws : Obligations.FieldLaws := by
  refine ⟨fun a b => ⟨gfAdd_comm a b, gfMul_comm a b⟩,
    fun a b c => ⟨gfAdd_assoc a b c, gfMul_assoc a b c, gfMul_gfAdd a b c⟩,
    fun a => ⟨gfAdd_zero a, gfMul_one a, gfAdd_gfNeg a, gfMul_gfInv⟩, fun a b => gfMul_eq_zero_iff,
    fun a => ⟨fun h => ?_, ?_⟩, (gfPow_three_mod 26).symm, gfAdd_self_self, gfPow_three_gfAdd,
    fun a b => val_gfMul_of_le_two, rfl, gfMul_eq_zero_iff.mpr (.inl rfl)⟩
  · obtain ⟨e, he⟩ := exists_gfLog h
    exact ⟨e, gfLog_eq_some_iff.mp he⟩
  · rintro ⟨e, -, rfl⟩
    exact gfPow_three_ne_zero e

/-- Settles O35: the tables through `gfPow`, `gfLog` and `gfInv`. -/
theorem tablesAgree : Obligations.TablesAgree := by
  have hsym {a : Nat} (ha : a < 27) (hpos : 0 < a) : (⟨a, ha⟩ : Sym) ≠ 0 := by
    simpa [Fin.ext_iff] using hpos.ne'
  refine ⟨⟨rfl, (gfPow_three_mod 26).symm, fun e he hpos hone => ?_⟩, rfl, fun e he => ?_, rfl,
    fun a ha hpos e he => ?_, rfl, rfl, fun a ha hpos => ?_, rfl, by decide⟩
  · have hlog : gfLog 1 = some e := gfLog_eq_some_iff.mpr ⟨he, hone⟩
    exact hpos.ne (Option.some.inj hlog)
  · simp [expTable_getElem? he]
  · have hlog : logTable[a - 1]? = gfLog ⟨a, ha⟩ := logTable_getElem? (hsym ha hpos)
    obtain ⟨l, hl⟩ := exists_gfLog (hsym ha hpos)
    have hiff : l = e ↔ (gfPow 3 e).val = a := by
      have h := gfLog_eq_some_iff (a := ⟨a, ha⟩) (e := e)
      rwa [hl, Option.some_inj, and_iff_right he, Fin.ext_iff] at h
    simpa [hlog, hl, expTable_getElem? (show e < 78 by omega)] using hiff
  · have hlog : logTable[a - 1]? = gfLog ⟨a, ha⟩ := logTable_getElem? (hsym ha hpos)
    have hinv : invTable[a]? = some (gfInv ⟨a, ha⟩).val := invTable_getElem? ⟨a, ha⟩
    obtain ⟨l, hl⟩ := exists_gfLog (hsym ha hpos)
    simp [hlog, hl, hinv, gfInv_of_gfLog hl, expTable_getElem? (show (26 - l) % 26 < 78 by omega)]

end Sys2Proof.Machine
end

section
/-! PROOFS. GF(27) inside a field of Mathlib. `embed` reads a symbol's three digits as the coefficients of 1, α and α²
for a root α of x³ − x − 2 in the algebraic closure of ℤ/3 (R123: α³ = α ⊕ 2). It is injective and turns ⊕, ⊖, ⊗, powers
and sums into the field's own, so an identity between symbols may be proved with Mathlib's algebra; `listPoly` does the
same for a polynomial held low order first (R11). -/

namespace Sys2Proof.Machine

open Polynomial

/-! ### The embedding of the symbols -/

/-- A field of characteristic 3 that has a root of x³ − x − 2. -/
abbrev SymClosure : Type := AlgebraicClosure (ZMod 3)

theorem exists_cube_eq_add_two : ∃ z : SymClosure, z ^ 3 = z + 2 := by
  have hdeg : (X ^ 3 - X - C 2 : SymClosure[X]).degree = 3 := by compute_degree!
  obtain ⟨z, hz⟩ := IsAlgClosed.exists_root (X ^ 3 - X - C 2 : SymClosure[X]) (by rw [hdeg]; decide)
  simp only [IsRoot.def, eval_sub, eval_pow, eval_X, eval_C] at hz
  exact ⟨z, by linear_combination hz⟩

/-- The image of α, the symbol 3 (R124). -/
noncomputable def alphaRoot : SymClosure := exists_cube_eq_add_two.choose

theorem alphaRoot_cube : alphaRoot ^ 3 = alphaRoot + 2 := exists_cube_eq_add_two.choose_spec

/-- The symbol with digits d₀, d₁, d₂ as d₀ + d₁·α + d₂·α². -/
noncomputable def embed (a : Sym) : SymClosure :=
  (dig a 0).val + (dig a 1).val * alphaRoot + (dig a 2).val * alphaRoot ^ 2

theorem cast_trit_add (s t : Trit) : ((s + t).val : SymClosure) = s.val + t.val := by
  rw [Fin.val_add, ← CharP.cast_eq_mod, Nat.cast_add]

theorem cast_trit_mul (s t : Trit) : ((s * t).val : SymClosure) = s.val * t.val := by
  rw [Fin.val_mul, ← CharP.cast_eq_mod, Nat.cast_mul]

@[simp] theorem embed_zero : embed 0 = 0 := by simp [embed, dig_zero]

@[simp] theorem embed_one : embed 1 = 1 := by simp [embed, dig]

theorem embed_three : embed 3 = alphaRoot := by simp [embed, dig]

@[simp] theorem embed_gfAdd (a b : Sym) : embed (gfAdd a b) = embed a + embed b := by
  simp (disch := decide) only [embed, dig_gfAdd, cast_trit_add]
  ring

@[simp] theorem embed_gfSub (a b : Sym) : embed (gfSub a b) = embed a - embed b := by
  have h : gfAdd (gfSub a b) b = a := sym_ext fun i hi => by rw [dig_gfAdd _ _ hi, dig_gfSub_add _ _ hi]
  rw [eq_sub_iff_add_eq, ← embed_gfAdd, h]

@[simp] theorem embed_gfNeg (a : Sym) : embed (gfNeg a) = -embed a := by simp [gfNeg]

/-- The digits of R123's product are those of the product reduced by α³ = α + 2. -/
@[simp] theorem embed_gfMul (a b : Sym) : embed (gfMul a b) = embed a * embed b := by
  have htwo : ((2 : Trit).val : SymClosure) = 2 := rfl
  obtain ⟨h0, h1, h2⟩ := dig_gfMul a b
  simp only [embed, h0, h1, h2, cast_trit_add, cast_trit_mul, htwo]
  linear_combination -((dig a 1).val * (dig b 2).val + (dig a 2).val * (dig b 1).val +
    (dig a 2).val * (dig b 2).val * alphaRoot : SymClosure) * alphaRoot_cube

theorem embed_eq_zero_iff {a : Sym} : embed a = 0 ↔ a = 0 := by
  refine ⟨fun h => by_contra fun ha => ?_, fun h => h ▸ embed_zero⟩
  have hone : embed a * embed (gfInv a) = 1 := by rw [← embed_gfMul, gfMul_gfInv ha, embed_one]
  simp [h] at hone

theorem embed_injective : Function.Injective embed := fun a b h => by
  have hsub : gfSub a b = 0 := embed_eq_zero_iff.mp (by rw [embed_gfSub, h, sub_self])
  exact sym_ext fun i hi => by rw [← dig_gfSub_add a b hi, hsub, dig_zero, zero_add]

@[simp] theorem embed_gfPow (v : Sym) (i : Nat) : embed (gfPow v i) = embed v ^ i := by
  induction i with
  | zero => simp [gfPow]
  | succ i ih => rw [gfPow, embed_gfMul, ih, pow_succ]

@[simp] theorem embed_gfSum (n : Nat) (f : Nat → Sym) : embed (gfSum n f) = ∑ i ∈ Finset.range n, embed (f i) := by
  induction n with
  | zero => simp [gfSum]
  | succ n ih => rw [gfSum, embed_gfAdd, ih, Finset.sum_range_succ]

@[simp] theorem embed_alphaPow (e : Nat) : embed (alphaPow e) = alphaRoot ^ e := by
  rw [← gfPow_three_eq_alphaPow, embed_gfPow, embed_three]

theorem gfPow_three_injOn {e e' : Nat} (he : e < 26) (he' : e' < 26) (h : gfPow 3 e = gfPow 3 e') : e = e' := by
  have hlog := gfLog_eq_some_iff.mpr ⟨he, h⟩
  rw [gfLog_eq_some_iff.mpr ⟨he', rfl⟩] at hlog
  exact (Option.some.inj hlog).symm

/-! ### Polynomials held low order first -/

/-- The polynomial whose coefficient i is entry i of the list. -/
noncomputable def listPoly : List Sym → SymClosure[X]
  | [] => 0
  | a :: l => C (embed a) + X * listPoly l

theorem coeff_listPoly (l : List Sym) (i : Nat) : (listPoly l).coeff i = embed (l.getD i 0) := by
  induction l generalizing i with
  | nil => simp [listPoly]
  | cons a l ih => cases i <;> simp [listPoly, ih]

theorem listPoly_append (l m : List Sym) : listPoly (l ++ m) = listPoly l + X ^ l.length * listPoly m := by
  induction l with
  | nil => simp [listPoly]
  | cons a l ih =>
    rw [List.cons_append, listPoly, ih, listPoly, List.length_cons]
    ring

theorem listPoly_map_gfNeg (l : List Sym) : listPoly (l.map gfNeg) = -listPoly l := by
  induction l with
  | nil => simp [listPoly]
  | cons a l ih =>
    rw [List.map_cons, listPoly, ih, listPoly, embed_gfNeg, C_neg]
    ring

theorem listPoly_replicate_zero (n : Nat) : listPoly (List.replicate n 0) = 0 := by
  induction n with
  | zero => rfl
  | succ n ih => simp [List.replicate_succ, listPoly, ih]

theorem eval_listPoly (l : List Sym) (x : SymClosure) :
    (listPoly l).eval x = ∑ i ∈ Finset.range l.length, embed (l.getD i 0) * x ^ i := by
  induction l with
  | nil => simp [listPoly]
  | cons a l ih =>
    simp only [listPoly, eval_add, eval_C, eval_mul, eval_X, ih, List.length_cons, Finset.sum_range_succ',
      List.getD_cons_succ, List.getD_cons_zero, pow_zero, mul_one, Finset.mul_sum]
    rw [add_comm]
    exact congrArg (· + _) (Finset.sum_congr rfl fun i _ => by ring)

end Sys2Proof.Machine
end

section
/-! PROOFS. The systematic Reed-Solomon encoder (spec/42_rs_encode.md) and the syndromes it makes zero (R171).

`quotient` collects the feedback symbols of the division of R155, and `remainder_spec` is its invariant,
m·x^r = q·g + ρ; with the parity −ρ the word RS.ENC writes is q·g (`wordPoly_encodeWord`). A word is a codeword exactly
when its polynomial vanishes at α¹ to αʳ (`isCodeword_iff`), so a multiple of g is one, and two codewords that agree at
degrees r and above are the same, because their difference has degree below r and r roots. -/

namespace Sys2Proof.Machine

open Polynomial

/-! ### The generator -/

theorem length_generator (p : Profile) : (generator p).length = p.r + 1 := by cases p <;> rfl

/-- g is monic: its last coefficient is 1. -/
theorem exists_generator_eq (p : Profile) : ∃ g, generator p = g ++ [1] ∧ g.length = p.r := by
  cases p <;> exact ⟨_, (List.dropLast_append_getLast (List.cons_ne_nil _ _)).symm, rfl⟩

theorem gfPow_gfPow_three (e i : Nat) : gfPow (gfPow 3 e) i = alphaPow (e * i) :=
  embed_injective (by simp [embed_three, pow_mul])

/-- R152: of the powers of α, g vanishes at α¹ to αʳ and nowhere else, by evaluation at all 26. -/
theorem generator_eval_eq_zero_iff (p : Profile) {e : Nat} (he : e < 26) :
    gfSum (p.r + 1) (fun i => gfMul ((generator p).getD i 0) (gfPow (gfPow 3 e) i)) = 0 ↔ 1 ≤ e ∧ e ≤ p.r := by
  have heval : ∀ e < 26, gfSum (p.r + 1) (fun i => gfMul ((generator p).getD i 0) (alphaPow (e * i))) = 0 ↔
      1 ≤ e ∧ e ≤ p.r := by
    cases p <;> decide
  simpa only [gfPow_gfPow_three] using heval e he

theorem eval_generator {p : Profile} {j : Nat} (hj : j < p.r) :
    (listPoly (generator p)).eval (alphaRoot ^ (j + 1)) = 0 := by
  have hr := profile_r_le p
  have hroot := (generator_eval_eq_zero_iff p (e := j + 1) (by omega)).mpr ⟨by omega, by omega⟩
  rw [← embed_eq_zero_iff] at hroot
  simpa [eval_listPoly, length_generator, embed_three] using hroot

/-- Settles O39: the shape of g profile by profile, and its roots. -/
theorem generatorRoots : Obligations.GeneratorRoots := fun p =>
  ⟨length_generator p, by cases p <;> rfl, by cases p <;> decide, fun _ he => generator_eval_eq_zero_iff p he⟩

/-! ### The division by the generator -/

theorem listPoly_zipWith (f : Sym) {a b : List Sym} (h : a.length = b.length) :
    listPoly (List.zipWith (fun x y => gfSub x (gfMul f y)) a b) = listPoly a - C (embed f) * listPoly b := by
  induction a generalizing b with
  | nil => simp [List.eq_nil_of_length_eq_zero h.symm, listPoly]
  | cons x a ih =>
    obtain _ | ⟨y, b⟩ := b
    · simp at h
    · rw [List.zipWith_cons_cons, listPoly, ih (Nat.succ.inj h), listPoly, listPoly, embed_gfSub, embed_gfMul, C_sub,
        C_mul]
      ring

/-- The step of R155 without the top of the remainder and of g, which cancel. -/
theorem encodeStep_concat {g l : List Sym} (d c : Sym) (h : (0 :: l).length = g.length) :
    encodeStep (g ++ [1]) (l ++ [d]) c =
      List.zipWith (fun prev gi => gfSub prev (gfMul (gfAdd c d) gi)) (0 :: l) g := by
  have hzip := List.zipWith_append (f := fun prev gi => gfSub prev (gfMul (gfAdd c d) gi)) (l₁' := []) (l₂' := [1]) h
  simpa [encodeStep] using hzip

theorem exists_concat_of_length {p : Profile} {rem : List Sym} (h : rem.length = p.r) :
    ∃ l d, rem = l ++ [d] ∧ (0 :: l).length = p.r := by
  obtain rfl | ⟨l, d, rfl⟩ := List.eq_nil_or_concat' rem
  · cases p <;> cases h
  · exact ⟨l, d, rfl, by simpa using h⟩

theorem length_encodeStep {p : Profile} {rem : List Sym} (h : rem.length = p.r) (c : Sym) :
    (encodeStep (generator p) rem c).length = p.r := by
  obtain ⟨g, hg, hlen⟩ := exists_generator_eq p
  obtain ⟨l, d, rfl, hl⟩ := exists_concat_of_length h
  rw [hg, encodeStep_concat d c (hl.trans hlen.symm), List.length_zipWith, hl, hlen, min_self]

/-- One step of R155 as an equation between polynomials: x·rem + c·x^r = f·g + rem′ with the feedback f. -/
theorem encodeStep_spec {p : Profile} {rem : List Sym} (h : rem.length = p.r) (c : Sym) :
    X * listPoly rem + C (embed c) * X ^ p.r =
      C (embed (gfAdd c (rem.getLastD 0))) * listPoly (generator p) + listPoly (encodeStep (generator p) rem c) := by
  obtain ⟨g, hg, hlen⟩ := exists_generator_eq p
  obtain ⟨l, d, rfl, hl⟩ := exists_concat_of_length h
  have hgl := hl.trans hlen.symm
  rw [hg, encodeStep_concat d c hgl, List.getLastD_concat, listPoly_zipWith _ hgl, listPoly_append, listPoly_append,
    hlen, ← hl, List.length_cons]
  simp only [listPoly, embed_gfAdd, embed_zero, embed_one, C_add, C_0, C_1]
  ring

theorem remainder_nil (p : Profile) : remainder p [] = List.replicate p.r 0 := rfl

theorem remainder_cons (p : Profile) (c : Sym) (m : List Sym) :
    remainder p (c :: m) = encodeStep (generator p) (remainder p m) c := by
  simp [remainder]

theorem length_remainder (p : Profile) (m : List Sym) : (remainder p m).length = p.r := by
  induction m with
  | nil => exact List.length_replicate
  | cons c m ih => rw [remainder_cons, length_encodeStep ih]

/-- The feedback symbols of the division of m·x^r by g, low order first: the coefficients of the quotient. -/
def quotient (p : Profile) : List Sym → List Sym
  | [] => []
  | c :: m => gfAdd c ((remainder p m).getLastD 0) :: quotient p m

theorem length_quotient (p : Profile) (m : List Sym) : (quotient p m).length = m.length := by
  induction m with
  | nil => rfl
  | cons c m ih => rw [quotient, List.length_cons, ih, List.length_cons]

/-- R153: m·x^r = q·g + ρ. -/
theorem remainder_spec (p : Profile) (m : List Sym) :
    X ^ p.r * listPoly m = listPoly (quotient p m) * listPoly (generator p) + listPoly (remainder p m) := by
  induction m with
  | nil => simp [listPoly, quotient, remainder_nil, listPoly_replicate_zero]
  | cons c m ih =>
    have hstep := encodeStep_spec (length_remainder p m) c
    rw [quotient, remainder_cons, listPoly, listPoly]
    linear_combination X * ih + hstep

/-! ### Words as polynomials -/

/-- c(x), the polynomial of the 26 symbols of a word: index = degree (R23). -/
noncomputable def wordPoly (v : Vector Sym 26) : SymClosure[X] := listPoly v.toList

theorem coeff_wordPoly (v : Vector Sym 26) (i : Nat) : (wordPoly v).coeff i = embed (coeff v i) := by
  rw [wordPoly, coeff_listPoly]
  congr 1
  unfold coeff
  split <;> simp [*]

theorem wordPoly_injective : Function.Injective wordPoly := fun v w h => by
  ext i hi
  have hcoeff := congrArg (Polynomial.coeff · i) h
  simp only [coeff_wordPoly, coeff_of_lt _ hi] at hcoeff
  rw [embed_injective hcoeff]

/-- Sⱼ = c(α^(j+1)) (R171). -/
theorem embed_syndrome (v : Vector Sym 26) (j : Nat) :
    embed (syndrome v j) = (wordPoly v).eval (alphaRoot ^ (j + 1)) := by
  simp only [syndrome, Config.codeLength, embed_gfSum, embed_gfMul, embed_alphaPow, wordPoly, eval_listPoly,
    Vector.length_toList, ← coeff_listPoly, pow_mul]
  simp only [← coeff_wordPoly, wordPoly]

theorem isCodeword_iff {p : Profile} {v : Vector Sym 26} :
    IsCodeword p v ↔ ∀ j < p.r, (wordPoly v).eval (alphaRoot ^ (j + 1)) = 0 := by
  simp only [← embed_syndrome, embed_eq_zero_iff, IsCodeword]

theorem alphaRoot_pow_injOn (p : Profile) : Set.InjOn (fun j => alphaRoot ^ (j + 1)) (Finset.range p.r) := by
  intro i hi j hj h
  simp only [Finset.coe_range, Set.mem_Iio] at hi hj
  have hr := profile_r_le p
  have hpow : gfPow 3 (i + 1) = gfPow 3 (j + 1) := embed_injective (by simpa [embed_three] using h)
  exact Nat.succ.inj (gfPow_three_injOn (by omega) (by omega) hpow)

theorem coeff_wordAdd (v w : Vector Sym 26) (i : Nat) : coeff (wordAdd v w) i = gfAdd (coeff v i) (coeff w i) := by
  by_cases hi : i < 26
  · simp [wordAdd, coeff_of_lt, hi]
  · simp [coeff_of_ge, Nat.le_of_not_lt hi, gfAdd_zero]

theorem coeff_map_gfMul (x : Sym) (v : Vector Sym 26) (i : Nat) : coeff (v.map (gfMul x)) i = gfMul x (coeff v i) := by
  by_cases hi : i < 26
  · simp [coeff_of_lt, hi]
  · simp [coeff_of_ge, Nat.le_of_not_lt hi, gfMul_zero]

theorem wordPoly_wordAdd (v w : Vector Sym 26) : wordPoly (wordAdd v w) = wordPoly v + wordPoly w := by
  ext i
  simp only [coeff_wordPoly, coeff_add, coeff_wordAdd, embed_gfAdd]

theorem wordPoly_map_gfMul (x : Sym) (v : Vector Sym 26) : wordPoly (v.map (gfMul x)) = C (embed x) * wordPoly v := by
  ext i
  simp only [coeff_wordPoly, coeff_C_mul, coeff_map_gfMul, embed_gfMul]

theorem syndrome_wordAdd (v w : Vector Sym 26) (j : Nat) :
    syndrome (wordAdd v w) j = gfAdd (syndrome v j) (syndrome w j) :=
  embed_injective (by simp only [embed_gfAdd, embed_syndrome, wordPoly_wordAdd, eval_add])

theorem syndrome_map_gfMul (x : Sym) (v : Vector Sym 26) (j : Nat) :
    syndrome (v.map (gfMul x)) j = gfMul x (syndrome v j) :=
  embed_injective (by simp only [embed_gfMul, embed_syndrome, wordPoly_map_gfMul, eval_mul, eval_C])

/-- The message decides a codeword: two differ by a polynomial of degree below r with r roots. -/
theorem eq_of_isCodeword {p : Profile} {v w : Vector Sym 26} (hv : IsCodeword p v) (hw : IsCodeword p w)
    (h : ∀ i, p.r ≤ i → coeff v i = coeff w i) : v = w := by
  have hdeg : (wordPoly v - wordPoly w).degree < (Finset.range p.r).card := by
    rw [Finset.card_range, degree_lt_iff_coeff_zero]
    intro i hi
    rw [coeff_sub, coeff_wordPoly, coeff_wordPoly, h i hi, sub_self]
  refine wordPoly_injective (eq_of_degree_sub_lt_of_eval_index_eq _ (alphaRoot_pow_injOn p) hdeg fun j hj => ?_)
  have hj := Finset.mem_range.mp hj
  rw [isCodeword_iff.mp hv j hj, isCodeword_iff.mp hw j hj]

/-! ### The encoded word -/

/-- The message of a word, its symbols at degrees r and above (R153). -/
def message (p : Profile) (v : Vector Sym 26) : List Sym := v.toList.drop p.r

theorem length_message (p : Profile) (v : Vector Sym 26) : (message p v).length = p.k := by
  rw [message, List.length_drop, Vector.length_toList]
  cases p <;> rfl

theorem toList_encodeWord (p : Profile) (v : Vector Sym 26) :
    (encodeWord p v).toList = (remainder p (message p v)).map gfNeg ++ message p v := by
  have hr := profile_r_le p
  refine List.ext_getElem ?_ fun i hi hi' => ?_
  · simp [length_remainder, message, Nat.add_sub_of_le (hr.trans (by decide : 8 ≤ 26))]
  · by_cases hir : i < p.r
    · simp [encodeWord, message, length_remainder, hir]
    · simp [encodeWord, message, length_remainder, hir, Nat.le_of_not_lt hir]

theorem coeff_encodeWord_of_ge {p : Profile} (v : Vector Sym 26) {i : Nat} (h : p.r ≤ i) :
    coeff (encodeWord p v) i = coeff v i := by
  by_cases hi : i < 26
  · rw [encodeWord, coeff_ofFn _ hi, coeff_of_lt _ hi, if_neg (Nat.not_lt.mpr h)]
    rfl
  · rw [coeff_of_ge _ (by omega), coeff_of_ge _ (by omega)]

/-- R153: c = m·x^r − ρ is the multiple q·g. -/
theorem wordPoly_encodeWord (p : Profile) (v : Vector Sym 26) :
    wordPoly (encodeWord p v) = listPoly (quotient p (message p v)) * listPoly (generator p) := by
  rw [wordPoly, toList_encodeWord, listPoly_append, listPoly_map_gfNeg, List.length_map, length_remainder,
    remainder_spec]
  ring

theorem encodeWord_isCodeword (p : Profile) (v : Vector Sym 26) : IsCodeword p (encodeWord p v) :=
  isCodeword_iff.mpr fun j hj => by rw [wordPoly_encodeWord, eval_mul, eval_generator hj, mul_zero]

theorem encodeWord_of_isCodeword {p : Profile} {v : Vector Sym 26} (h : IsCodeword p v) : encodeWord p v = v :=
  eq_of_isCodeword (encodeWord_isCodeword p v) h fun _ hi => coeff_encodeWord_of_ge v hi

/-! ### The statements -/

theorem exec_rsEnc (s : State) :
    exec .rsEnc s = .next (State.answered { s with cw := encodeWord s.st.psel s.cw } 0x00000000#32) := rfl

theorem exec_rsSyn (s : State) :
    exec .rsSyn s = .next ((synStage s).respond .ok ((BitVec.ofBool (synStage s).st.sz).setWidth 28)) := rfl

theorem exec_rsSyn_of_isCodeword {s : State} (h : IsCodeword s.st.psel s.cw) :
    exec .rsSyn s = .next ((synStage s).answered 0x00000001#32) := by
  have hsz : (synStage s).st.sz = true := (synStage_sz_iff s).mpr h
  rw [exec_rsSyn, hsz]
  rfl

/-- Settles O40: the quotient of the division is the factor. -/
theorem rsEncIsSystematic : Obligations.RsEncIsSystematic := fun s => by
  refine ⟨_, quotient s.st.psel (message s.st.psel s.cw), exec_rsEnc s, fun i hi => ?_, ?_, fun i => ?_⟩
  · have hcoeff := coeff_encodeWord_of_ge s.cw hi
    rwa [coeff_of_lt _ i.isLt, coeff_of_lt _ i.isLt] at hcoeff
  · rw [length_quotient, length_message]
  · have hcoeff := coeff_wordPoly (encodeWord s.st.psel s.cw) i
    rw [coeff_of_lt _ i.isLt, wordPoly_encodeWord, coeff_mul,
      Finset.Nat.sum_antidiagonal_eq_sum_range_succ_mk] at hcoeff
    refine embed_injective (hcoeff.symm.trans ?_)
    simp only [coeff_listPoly, embed_gfSum, embed_gfMul]

/-- RS.ENC keeps the profile and leaves a codeword in CW. -/
theorem exists_exec_rsEnc (s : State) :
    ∃ t, exec .rsEnc s = .next t ∧ t.st.psel = s.st.psel ∧ IsCodeword s.st.psel t.cw :=
  ⟨_, exec_rsEnc s, rfl, encodeWord_isCodeword s.st.psel s.cw⟩

theorem exec_rsEnc_of_isCodeword {s : State} (h : IsCodeword s.st.psel s.cw) :
    exec .rsEnc s = .next (s.answered 0x00000000#32) := by
  rw [exec_rsEnc, encodeWord_of_isCodeword h]

/-- Settles O41: that RS.ENC is idempotent is that it fixes the codeword it wrote. -/
theorem encodedWordIsCodeword : Obligations.EncodedWordIsCodeword := by
  refine ⟨fun s => ?_, fun s => exec_rsEnc_of_isCodeword⟩
  obtain ⟨t, ht, hpsel, hcode⟩ := exists_exec_rsEnc s
  have hcode' : IsCodeword t.st.psel t.cw := hpsel ▸ hcode
  exact ⟨t, (synStage t).answered 0x00000001#32, ht, hcode, exec_rsSyn_of_isCodeword hcode',
    (synStage_sz_iff t).mpr hcode', rfl, exec_rsEnc_of_isCodeword hcode'⟩

/-- Settles O42: the syndromes are values of the word's polynomial, and those of a codeword are zero. -/
theorem syndromesAreLinear : Obligations.SyndromesAreLinear := by
  refine ⟨fun a b x j => ⟨syndrome_wordAdd a b j, syndrome_map_gfMul x a j⟩, fun s c e hc hs => ?_⟩
  refine ⟨_, exec_rsSyn s, fun j hj => ?_⟩
  calc coeff (syndromes s.st.psel.r s.cw) j = syndrome s.cw j := by
        rw [coeff_syndromes _ (hj.trans_le (profile_r_le _)), if_pos hj]
    _ = gfAdd (syndrome c j) (syndrome e j) := by rw [hs, syndrome_wordAdd]
    _ = syndrome e j := by rw [hc j hj, gfAdd_comm, gfAdd_zero]

end Sys2Proof.Machine
end

section
/-! PROOFS. The stage commands of the decoder (spec/43_rs_decode.md), each from the buffers it reads: what RS.SYN,
RS.CHIEN and RS.FORNEY write, RS.DEC as their composition, and why an uncorrectable command answers the same again.

Evaluation at a power of α is the model's own sum with the exponents reduced (`polyEval_gfPow_three`). A stage reads
nothing of what it writes, so its outcome is the same from any two states that agree on the parts it reads
(`bmStage_congr`, `chienStage_congr`, `forneyStage_congr`). -/

namespace Sys2Proof.Machine

/-! ### Evaluation at powers of α -/

theorem polyEval_gfPow_three {n : Nat} (v : Vector Sym n) (e : Nat) :
    polyEval v (gfPow 3 e) = gfSum n fun i => gfMul (coeff v i) (alphaPow (e * i)) := by
  simp only [polyEval, gfPow_gfPow_three]

theorem syndrome_eq_polyEval (cw : Vector Sym 26) (j : Nat) : syndrome cw j = polyEval cw (gfPow 3 (j + 1)) :=
  (polyEval_gfPow_three cw (j + 1)).symm

theorem inverseLocator_eq_gfPow (pos : Nat) : inverseLocator pos = gfPow 3 (26 - pos) := gfPow_three_mod _

theorem locatorAt_eq_polyEval (sig : Vector Sym 9) (pos : Nat) :
    locatorAt sig pos = polyEval sig (inverseLocator pos) := by
  simp only [inverseLocator_eq_gfPow, polyEval_gfPow_three, locatorAt, Nat.mul_comm]

theorem locatorInverse_eq (pos : Nat) : locatorInverse pos = inverseLocator pos := by
  rw [inverseLocator_eq_gfPow, gfPow_three_eq_alphaPow, locatorInverse]

/-! ### The response of a stage -/

theorem finish_of_uncorrectable {e : StageEnd} (h : e.uncorrectable = true) :
    e.finish = e.state.faulted .rsUncorrectable (0x5#4 ++ e.data) := by
  rw [StageEnd.finish, h]
  exact respond_eq_faulted _ (by decide) _

theorem finish_of_correctable {e : StageEnd} (h : e.uncorrectable = false) :
    e.finish = e.state.answered (0x0#4 ++ e.data) := by
  rw [StageEnd.finish, h]
  rfl

/-! ### RS.SYN -/

theorem append_ofBool (z : Bool) :
    0x0#4 ++ (BitVec.ofBool z).setWidth 28 = if z then 0x00000001#32 else 0x00000000#32 := by
  cases z <;> rfl

/-- Settles O43. -/
theorem rsSynResult : Obligations.RsSynResult := by
  intro s
  refine ⟨syndromes s.st.psel.r s.cw, (synStage s).st.sz, ?_, fun j => ?_, ?_⟩
  · rw [exec_rsSyn, respond_ok_eq_answered, append_ofBool]
    rfl
  · simp [syndromes, syndrome_eq_polyEval]
  · rw [synStage_st_sz, syndromesZero_eq_true]
    have hr := profile_r_le s.st.psel
    refine ⟨fun h j hj => ?_, fun h j hj => ?_⟩
    · exact (coeff_of_lt _ j.isLt).symm.trans (h j hj)
    · exact (coeff_of_lt _ (hj.trans_le hr)).trans (h ⟨j, hj.trans_le hr⟩ hj)

/-! ### RS.CHIEN -/

theorem rootCount_eq_locCount (loc : Vector Bool 26) : rootCount loc = locCount loc := by
  have hlist : loc.toList = (List.finRange 26).map fun i => loc[i] :=
    List.ext_getElem (by simp) fun i hi hi' => by simp
  rw [rootCount, hlist, List.countP_map, locCount]
  rfl

theorem locCount_lt (loc : Vector Bool 26) : locCount loc < 2 ^ 28 := by
  rw [← rootCount_eq_locCount]
  exact (rootCount_le loc).trans_lt (by decide)

/-- R176 as one equation: the whole end of the stage from the root count. -/
theorem chienStage_eq (s : State) :
    chienStage s =
      { state :=
          { s with
            loc := chienSearch s.sig
            st :=
              { s.st with
                nroot := rootCount (chienSearch s.sig)
                unc := rootCount (chienSearch s.sig) != s.st.len || s.st.unc } }
        uncorrectable := rootCount (chienSearch s.sig) != s.st.len
        data := BitVec.ofNat 28 (rootCount (chienSearch s.sig)) } := by
  simp only [chienStage, Status.withOutcome]

theorem chienStage_uncorrectable (s : State) :
    (chienStage s).uncorrectable = (rootCount (chienSearch s.sig) != s.st.len) := by
  rw [chienStage_eq]

theorem exec_rsChien (s : State) : exec .rsChien s = .next (chienStage s).finish := rfl

/-- Settles O46. -/
theorem rsChienFindsRoots : Obligations.RsChienFindsRoots := by
  intro s
  refine ⟨chienSearch s.sig, fun pos => by simp [chienSearch, locatorAt_eq_polyEval], ?_⟩
  have hlt := locCount_lt (chienSearch s.sig)
  rw [exec_rsChien, chienStage_eq, rootCount_eq_locCount]
  generalize locCount (chienSearch s.sig) = cnt at hlt
  split_ifs with hlen
  · have hne : (cnt != s.st.len) = false := by simp [hlen]
    rw [hne, finish_of_correctable rfl, ok_append_ofNat hlt]
    rfl
  · rw [bne_iff_ne.mpr hlen, finish_of_uncorrectable rfl]
    rfl

/-! ### RS.FORNEY -/

/-- The coefficients of σ′ computed from i mod 3 are those R178 lists. -/
theorem derivative_eq_printed (sig : Vector Sym 9) : derivative sig = printedDerivative sig := by
  ext i hi
  interval_cases i <;> simp [derivative, printedDerivative, coeff]

theorem forneyDenominator_eq (sig : Vector Sym 9) (pos : Nat) :
    forneyDenominator sig pos = polyEval (printedDerivative sig) (inverseLocator pos) := by
  rw [forneyDenominator, derivative_eq_printed, locatorInverse_eq]

theorem forneyFails_iff {sig : Vector Sym 9} {loc : Vector Bool 26} :
    forneyFails sig loc = true ↔ ∃ pos : Fin 26, loc[pos] = true ∧ forneyDenominator sig pos.val = 0 := by
  simp only [forneyFails, List.any_eq_true, List.mem_range, Bool.and_eq_true, beq_iff_eq]
  refine ⟨fun ⟨pos, hpos, hloc, hden⟩ => ⟨⟨pos, hpos⟩, locEntry_of_lt loc hpos ▸ hloc, hden⟩, ?_⟩
  rintro ⟨pos, hloc, hden⟩
  exact ⟨pos, pos.isLt, (locEntry_of_lt loc pos.isLt).trans hloc, hden⟩

theorem gfSub_gfSub_self (a b : Sym) : gfSub a (gfSub a b) = b := embed_injective (by simp)

/-- R179: mag ⊗ σ′(X⁻¹) = neg(Ω(X⁻¹)) where the denominator is not zero. -/
theorem forneyMagnitude_mul {omg : Vector Sym 8} {sig : Vector Sym 9} {pos : Nat}
    (h : forneyDenominator sig pos ≠ 0) :
    gfMul (forneyMagnitude omg sig pos) (forneyDenominator sig pos) = gfNeg (polyEval omg (inverseLocator pos)) := by
  have hinv : embed (forneyDenominator sig pos) * embed (gfInv (forneyDenominator sig pos)) = 1 := by
    rw [← embed_gfMul, gfMul_gfInv h, embed_one]
  refine embed_injective ?_
  rw [forneyMagnitude, locatorInverse_eq, embed_gfMul, embed_gfNeg, embed_gfNeg, embed_gfMul]
  linear_combination -embed (polyEval omg (inverseLocator pos)) * hinv

theorem corrected_getElem (cw : Vector Sym 26) (omg : Vector Sym 8) (sig : Vector Sym 9) (loc : Vector Bool 26)
    (pos : Fin 26) :
    (corrected cw omg sig loc)[pos] =
      if loc[pos] then gfSub cw[pos] (forneyMagnitude omg sig pos.val) else cw[pos] := by
  simp [corrected]

theorem forneyStage_uncorrectable (s : State) : (forneyStage s).uncorrectable = forneyFails s.sig s.loc := rfl

theorem exec_rsForney (s : State) : exec .rsForney s = .next (forneyStage s).finish := rfl

/-- Settles O47. -/
theorem rsForneyCorrects : Obligations.RsForneyCorrects := by
  intro s
  refine ⟨evaluator s.st.psel.r s.sig s.syn, fun i => by simp [evaluator], ?_⟩
  simp only [← forneyDenominator_eq, ← forneyFails_iff, exec_rsForney]
  split_ifs with hfail
  · have hunc : (forneyStage s).uncorrectable = true := (forneyStage_uncorrectable s).trans hfail
    rw [finish_of_uncorrectable hunc]
    simp only [forneyStage, Status.withOutcome, hfail, if_true, Bool.true_or]
    rfl
  · have hok := Bool.eq_false_iff.mpr hfail
    have hunc : (forneyStage s).uncorrectable = false := (forneyStage_uncorrectable s).trans hok
    refine ⟨corrected s.cw (evaluator s.st.psel.r s.sig s.syn) s.sig s.loc, ?_, fun pos => ?_⟩
    · rw [finish_of_correctable hunc, ← ok_append_ofNat (locCount_lt _), ← rootCount_eq_locCount]
      simp only [forneyStage, Status.withOutcome, hok, Bool.false_eq_true, if_false, Bool.false_or]
    · rw [corrected_getElem]
      split_ifs with hloc
      · rw [gfSub_gfSub_self]
        exact forneyMagnitude_mul fun hden => hfail (forneyFails_iff.mpr ⟨pos, hloc, hden⟩)
      · rfl

/-! ### RS.DEC as the composition of the stages -/

theorem responseCode_finish_iff (e : StageEnd) : responseCode e.finish.lastResponse = 5 ↔ e.uncorrectable = true := by
  rw [StageEnd.finish, respond_lastResponse, ← beq_iff_eq, responseCode_outcome]

/-- `s` with other responses given and nothing else changed. -/
def State.withResponses (s : State) (rs : List Word) : State := { s with responses := rs }

/-- A stage that ends well adds nothing but its response to the state it reached. -/
theorem finish_withResponses {e : StageEnd} {rs : List Word} (hr : e.state.responses = rs)
    (h : e.uncorrectable = false) : e.finish.withResponses rs = e.state := by
  subst hr
  rw [finish_of_correctable h]
  rfl

theorem exec_rsDec (s : State) : exec .rsDec s = .next (decodeWord s) := rfl

/-- Settles O48: a stage that ends well hands on the very state the next stage of RS.DEC starts from. -/
theorem rsDecIsComposition : Obligations.RsDecIsComposition := by
  intro s
  let b := (bmStage (synStage s)).finish
  let c := (chienStage (b.withResponses s.responses)).finish
  let d := (forneyStage (c.withResponses s.responses)).finish
  refine ⟨_, b, c, d, exec_rsSyn s, rfl, rfl, rfl, congrArg Host.Outcome.next ?_⟩
  have hb : (bmStage (synStage s)).uncorrectable = false → b.withResponses s.responses = (bmStage (synStage s)).state :=
    finish_withResponses (bmStage_responses (synStage s))
  have hc : (chienStage (bmStage (synStage s)).state).uncorrectable = false →
      (chienStage (bmStage (synStage s)).state).finish.withResponses s.responses =
        (chienStage (bmStage (synStage s)).state).state :=
    finish_withResponses (chienStage_responses (bmStage (synStage s)).state)
  simp only [b, c, d, responseCode_finish_iff] at hb ⊢
  obtain ⟨hsz, h⟩ | ⟨hsz, hbm, h⟩ | ⟨hsz, hbm, hchien, h⟩ | ⟨hsz, hbm, hchien, h⟩ := decodeWord_cases s
  all_goals rw [respond_st_sz, hsz, h]
  · rfl
  · rw [if_neg Bool.false_ne_true, if_pos hbm]
  · rw [if_neg Bool.false_ne_true, hb hbm, hbm, hchien]
    rfl
  · rw [if_neg Bool.false_ne_true, hb hbm, hbm, hchien, hc hchien]
    rfl

/-! ### The two ways a decoder command ends -/

/-- The command led from `s` to `t` and ended `RsUncorrectable` with CW unchanged (R182, R263). -/
def EndsUncorrectable (s t : State) : Prop :=
  ∃ d : Data, t.responses = s.responses ++ [0x5#4 ++ d] ∧ t.cw = s.cw ∧ t.st.unc = true ∧
    t.st.lasterr = .rsUncorrectable

/-- The command led from `s` to `t` and ended OK. -/
def EndsOk (s t : State) : Prop := ∃ d : Data, t.responses = s.responses ++ [0x0#4 ++ d]

theorem EndsUncorrectable.of_stage {s : State} {e : StageEnd} (h : e.uncorrectable = true)
    (hr : e.state.responses = s.responses) (hcw : e.state.cw = s.cw) {b : Bool}
    (hunc : e.state.st.unc = (e.uncorrectable || b)) : EndsUncorrectable s e.finish := by
  refine ⟨e.data, ?_, hcw, ?_, ?_⟩
  · rw [finish_of_uncorrectable h, faulted_responses, hr]
  · rw [StageEnd.finish, respond_st_unc, hunc, h, Bool.true_or]
  · rw [finish_of_uncorrectable h, faulted_lasterr]

theorem EndsOk.of_stage {s : State} {e : StageEnd} (h : e.uncorrectable = false)
    (hr : e.state.responses = s.responses) : EndsOk s e.finish :=
  ⟨e.data, by rw [finish_of_correctable h, answered_responses, hr]⟩

theorem bmStage_ends (s : State) : EndsOk s (bmStage s).finish ∨ EndsUncorrectable s (bmStage s).finish := by
  cases h : (bmStage s).uncorrectable
  · exact .inl (.of_stage h (bmStage_responses s))
  · exact .inr (.of_stage h (bmStage_responses s) (bmStage_cw s) (bmStage_st_unc s))

theorem chienStage_ends (s : State) :
    EndsOk s (chienStage s).finish ∨ EndsUncorrectable s (chienStage s).finish := by
  cases h : (chienStage s).uncorrectable
  · exact .inl (.of_stage h (chienStage_responses s))
  · exact .inr (.of_stage h (chienStage_responses s) (chienStage_cw s) (chienStage_st_unc s))

theorem forneyStage_cw_of_uncorrectable {s : State} (h : (forneyStage s).uncorrectable = true) :
    (forneyStage s).state.cw = s.cw := by
  rw [forneyStage_cw, if_pos ((forneyStage_uncorrectable s).symm.trans h)]

theorem forneyStage_ends (s : State) :
    EndsOk s (forneyStage s).finish ∨ EndsUncorrectable s (forneyStage s).finish := by
  cases h : (forneyStage s).uncorrectable
  · exact .inl (.of_stage h (forneyStage_responses s))
  · exact .inr (.of_stage h (forneyStage_responses s) (forneyStage_cw_of_uncorrectable h) (forneyStage_st_unc s))

/-- R181: RS.DEC ends OK at zero syndromes, `RsUncorrectable` in RS.BM or RS.CHIEN, or as RS.FORNEY ends. -/
theorem decodeWord_ends (s : State) : EndsOk s (decodeWord s) ∨ EndsUncorrectable s (decodeWord s) := by
  obtain ⟨-, h⟩ | ⟨-, hbm, h⟩ | ⟨-, -, hchien, h⟩ | ⟨-, -, -, h⟩ := decodeWord_cases s <;> rw [h]
  · exact .inl ⟨0, rfl⟩
  · exact .inr (.of_stage hbm (bmStage_responses _) (bmStage_cw _) (bmStage_st_unc _))
  · exact .inr (.of_stage hchien (by simp) (by simp) (chienStage_st_unc _))
  · have hends := forneyStage_ends (chienStage (bmStage (synStage s)).state).state
    simpa only [EndsOk, EndsUncorrectable, chienStage_responses, bmStage_responses, synStage_responses, chienStage_cw,
      bmStage_cw, synStage_cw] using hends

theorem not_endsOk_of_lastResponse {s s' t t' : State} (h : EndsUncorrectable s t)
    (he : t'.lastResponse = t.lastResponse) : ¬EndsOk s' t' := by
  rintro ⟨d', hd'⟩
  obtain ⟨d, hd, -⟩ := h
  rw [lastResponse_of_append hd, lastResponse_of_append hd'] at he
  have hcode := congrArg (BitVec.extractLsb' 28 4) he
  rw [BitVec.extractLsb'_append_eq_left, BitVec.extractLsb'_append_eq_left] at hcode
  exact absurd hcode (by decide)

/-! ### What the outcome of a stage depends on -/

theorem finish_lastResponse (e : StageEnd) :
    e.finish.lastResponse = responseWord (outcomeCode e.uncorrectable) e.data := respond_lastResponse _ _ _

theorem finish_sig (e : StageEnd) : e.finish.sig = e.state.sig := rfl

theorem finish_st_len (e : StageEnd) : e.finish.st.len = e.state.st.len := rfl

/-- The two ends of a stage have the same code and data. -/
def SameOutcome (e e' : StageEnd) : Prop := e.uncorrectable = e'.uncorrectable ∧ e.data = e'.data

theorem SameOutcome.lastResponse_eq {e e' : StageEnd} (h : SameOutcome e e') :
    e.finish.lastResponse = e'.finish.lastResponse := by
  rw [finish_lastResponse, finish_lastResponse, h.1, h.2]

theorem bmStage_congr {s t : State} (hpsel : t.st.psel = s.st.psel) (hsyn : t.syn = s.syn) :
    SameOutcome (bmStage t) (bmStage s) := by
  simp only [SameOutcome, bmStage, hpsel, hsyn, and_self]

theorem chienStage_congr {s t : State} (hsig : t.sig = s.sig) (hlen : t.st.len = s.st.len) :
    SameOutcome (chienStage t) (chienStage s) := by
  simp only [SameOutcome, chienStage_eq, hsig, hlen, and_self]

theorem forneyStage_congr {s t : State} (hsig : t.sig = s.sig) (hloc : t.loc = s.loc) :
    SameOutcome (forneyStage t) (forneyStage s) := by
  simp only [SameOutcome, forneyStage, hsig, hloc, and_self]

/-- What RS.DEC answers depends on CW and the profile alone. -/
theorem decodeWord_congr {s t : State} (hcw : t.cw = s.cw) (hpsel : t.st.psel = s.st.psel) :
    (decodeWord t).lastResponse = (decodeWord s).lastResponse := by
  have hsyn : (synStage t).syn = (synStage s).syn := by rw [synStage_syn, synStage_syn, hcw, hpsel]
  have hsz : (synStage t).st.sz = (synStage s).st.sz := by rw [synStage_st_sz, synStage_st_sz, hcw, hpsel]
  have hbm : SameOutcome (bmStage (synStage t)) (bmStage (synStage s)) := bmStage_congr hpsel hsyn
  have hsig : (bmStage (synStage t)).state.sig = (bmStage (synStage s)).state.sig := by
    rw [bmStage_sig, bmStage_sig, hsyn, synStage_st_psel, synStage_st_psel, hpsel]
  have hlen : (bmStage (synStage t)).state.st.len = (bmStage (synStage s)).state.st.len := by
    rw [bmStage_st_len, bmStage_st_len, hsyn, synStage_st_psel, synStage_st_psel, hpsel]
  have hchien := chienStage_congr hsig hlen
  have hforney : SameOutcome (forneyStage (chienStage (bmStage (synStage t)).state).state)
      (forneyStage (chienStage (bmStage (synStage s)).state).state) :=
    forneyStage_congr (by rw [chienStage_sig, chienStage_sig, hsig]) (by rw [chienStage_loc, chienStage_loc, hsig])
  simp only [decodeWord, hsz, hbm.1, hchien.1]
  split_ifs
  · rw [respond_lastResponse, respond_lastResponse]
  · exact hbm.lastResponse_eq
  · exact hchien.lastResponse_eq
  · exact hforney.lastResponse_eq

/-! ### An uncorrectable word is kept -/

/-- What R182 and R263 say of the meaning `m` from `s`. -/
def KeepsUncorrectable (m : State → Result) (s : State) : Prop :=
  ∃ (t : State) (c : ResultCode) (d : Data),
    m s = .next t ∧ t.responses = s.responses ++ [c.code ++ d] ∧
    (c = .rsUncorrectable →
      t.cw = s.cw ∧ t.st.unc = true ∧ t.st.lasterr = .rsUncorrectable ∧
        ∃ u, m t = .next u ∧ u.responses = t.responses ++ [c.code ++ d] ∧ u.cw = s.cw)

/-- A command that cannot end `RsUncorrectable`. -/
theorem KeepsUncorrectable.of_respond {m : State → Result} {s u : State} {c : ResultCode} {d : Data}
    (hm : m s = .next (u.respond c d)) (hr : u.responses = s.responses) (hc : c ≠ .rsUncorrectable) :
    KeepsUncorrectable m s :=
  ⟨_, c, d, hm, by rw [respond_responses, hr, responseWord], fun h => absurd h hc⟩

theorem KeepsUncorrectable.of_raise {m : State → Result} {s : State} {f : ResultCode}
    (hm : m s = .next (s.raise f)) (hf : f ≠ .rsUncorrectable) : KeepsUncorrectable m s := .of_respond hm rfl hf

/-- A decoder command whose answer the command itself does not change. -/
theorem KeepsUncorrectable.of_decoder {m : State → State} (hends : ∀ s, EndsOk s (m s) ∨ EndsUncorrectable s (m s))
    {s : State} (hrepeat : EndsUncorrectable s (m s) → (m (m s)).lastResponse = (m s).lastResponse) :
    KeepsUncorrectable (fun u => .next (m u)) s := by
  obtain ⟨d, hd⟩ | hunc := hends s
  · exact ⟨m s, .ok, d, rfl, hd, nofun⟩
  · have hlast := hrepeat hunc
    have hagain := (hends (m s)).resolve_left (not_endsOk_of_lastResponse hunc hlast)
    obtain ⟨d, hd, hcw, hflag, herr⟩ := hunc
    obtain ⟨d', hd', hcw', -, -⟩ := hagain
    rw [lastResponse_of_append hd, lastResponse_of_append hd'] at hlast
    exact ⟨m s, .rsUncorrectable, d, rfl, hd, fun _ =>
      ⟨hcw, hflag, herr, m (m s), rfl, by rw [hd', hlast]; rfl, hcw'.trans hcw⟩⟩

theorem fieldOp_keepsUncorrectable (op : Sym → Sym → Sym) (a b : BitVec 5) (s : State) :
    KeepsUncorrectable (fieldOp op a b) s := by
  unfold fieldOp
  cases symOperand a with
  | none => exact .of_raise rfl (by decide)
  | some x =>
    cases symOperand b with
    | none => exact .of_raise rfl (by decide)
    | some y => exact .of_respond rfl rfl (by decide)

theorem execPack243_keepsUncorrectable (k : BitVec 3) (t : Vector (BitVec 2) 5) (s : State) :
    KeepsUncorrectable (execPack243 k t) s := by
  unfold execPack243
  cases countOperand k with
  | none => exact .of_raise rfl (by decide)
  | some n =>
    dsimp only
    cases groupOperand n t with
    | none => exact .of_raise rfl (by decide)
    | some ts => exact .of_respond rfl rfl (by decide)

theorem execUnpk243_keepsUncorrectable (k : BitVec 3) (byte : BitVec 8) (s : State) :
    KeepsUncorrectable (execUnpk243 k byte) s := by
  unfold execUnpk243
  cases countOperand k with
  | none => exact .of_raise rfl (by decide)
  | some n =>
    by_cases h : 3 ^ n ≤ byte.toNat
    · exact .of_raise (if_pos h) (by decide)
    · exact .of_respond (if_neg h) rfl (by decide)

theorem execBufWr_keepsUncorrectable (buf : BitVec 3) (idx sym : BitVec 5) (s : State) :
    KeepsUncorrectable (execBufWr buf idx sym) s := by
  unfold execBufWr
  cases addressOperand buf idx with
  | none => exact .of_raise rfl (by decide)
  | some address =>
    obtain ⟨b, i⟩ := address
    dsimp only
    cases elementOperand b sym with
    | none => exact .of_raise rfl (by decide)
    | some v => exact .of_respond rfl (memWrite_responses s b i v) (by decide)

theorem execBufRd_keepsUncorrectable (buf : BitVec 3) (idx : BitVec 5) (s : State) :
    KeepsUncorrectable (execBufRd buf idx) s := by
  unfold execBufRd
  cases addressOperand buf idx with
  | none => exact .of_raise rfl (by decide)
  | some address => exact .of_respond rfl rfl (by decide)

/-- Settles O17: only the decoder commands can end so, and what each reads it has not written. -/
theorem uncorrectableKeepsTheWord : Obligations.UncorrectableKeepsTheWord := by
  intro i s
  change KeepsUncorrectable (exec i) s
  cases i with
  | rsBm =>
    have hagain : SameOutcome (bmStage (bmStage s).finish) (bmStage s) :=
      bmStage_congr (bmStage_st_psel s) (bmStage_syn s)
    exact .of_decoder bmStage_ends fun _ => hagain.lastResponse_eq
  | rsChien =>
    have hagain : SameOutcome (chienStage (chienStage s).finish) (chienStage s) :=
      chienStage_congr ((finish_sig _).trans (chienStage_sig s)) ((finish_st_len _).trans (chienStage_st_len s))
    exact .of_decoder chienStage_ends fun _ => hagain.lastResponse_eq
  | rsForney =>
    have hagain : SameOutcome (forneyStage (forneyStage s).finish) (forneyStage s) :=
      forneyStage_congr (forneyStage_sig s) (forneyStage_loc s)
    exact .of_decoder forneyStage_ends fun _ => hagain.lastResponse_eq
  | rsDec =>
    refine .of_decoder decodeWord_ends fun hunc => decodeWord_congr ?_ ?_
    · obtain ⟨-, -, hcw, -⟩ := hunc
      exact hcw
    · have hsame : Part.psel.same s (decodeWord s) := exec_same (exec_rsDec s) (by simp [writes])
      exact hsame
  | nop | statRd | statClr | reset | tritB2u | tritU2b | gfPowa | rsEnc | rsSyn | crcInit | crcFin
  | crcRd | pixLd | pixRd | pixPack2 | pixPack1 | pixUnpk2 | pixUnpk1 => exact .of_respond rfl rfl (by decide)
  | pack243 k t => exact execPack243_keepsUncorrectable k t s
  | unpk243 k byte => exact execUnpk243_keepsUncorrectable k byte s
  | gfAdd a b => exact fieldOp_keepsUncorrectable Machine.gfAdd a b s
  | gfSub a b => exact fieldOp_keepsUncorrectable Machine.gfSub a b s
  | gfMul a b => exact fieldOp_keepsUncorrectable Machine.gfMul a b s
  | bufWr buf idx sym => exact execBufWr_keepsUncorrectable buf idx sym s
  | bufRd buf idx => exact execBufRd_keepsUncorrectable buf idx s
  | gfInv a =>
    cases h : symOperand a with
    | none => exact .of_raise (execGfInv_of_none h s) (by decide)
    | some x => exact .of_respond (execGfInv_of_some h s) rfl (by decide)
  | rsCfg p =>
    cases h : profileOperand p with
    | none => exact .of_raise (execRsCfg_of_none h s) (by decide)
    | some q => exact .of_respond (execRsCfg_of_some h s) rfl (by decide)
  | crcTrit t =>
    cases h : tritOperand t with
    | none => exact .of_raise (execCrcTrit_of_none h s) (by decide)
    | some d => exact .of_respond (execCrcTrit_of_some h s) rfl (by decide)
  | crcSym a =>
    cases h : symOperand a with
    | none => exact .of_raise (execCrcSym_of_none h s) (by decide)
    | some x => exact .of_respond (execCrcSym_of_some h s) rfl (by decide)

end Sys2Proof.Machine
end

section
/-! PROOFS. Berlekamp–Massey (spec/43_rs_decode.md R173): the register RS.BM leaves generates the syndromes, and no
shorter one does.

A register of length L with the connection polynomial P generates the first n syndromes when P·S has the coefficients 0
from L to n − 1 (`Generates`), S being the polynomial of SYN. The round that finds the coefficient d ≠ 0 at n subtracts
a multiple of the earlier register, shifted so that its own first failure comes to stand at n (`Generates.update`). That
the new length is the least possible is `Generates.length_bound`: with Q generating one syndrome more than P, the
coefficient of Q·P·S at n is d read as Q·(P·S) and 0 read as P·(Q·S), unless the two lengths have the sum n + 1 at
least. -/

namespace Sys2Proof.Machine

open Polynomial

/-! ### Buffers as polynomials -/

/-- The polynomial of a buffer held low order first. -/
noncomputable def bufferPoly {n : Nat} (v : Vector Sym n) : SymClosure[X] := listPoly v.toList

theorem coeff_bufferPoly {n : Nat} (v : Vector Sym n) (i : Nat) : (bufferPoly v).coeff i = embed (coeff v i) := by
  rw [bufferPoly, coeff_listPoly]
  congr 1
  unfold coeff
  split <;> simp [*]

theorem embed_polyEval {n : Nat} (v : Vector Sym n) (x : Sym) :
    embed (polyEval v x) = (bufferPoly v).eval (embed x) := by
  simp only [polyEval, embed_gfSum, embed_gfMul, embed_gfPow, ← coeff_bufferPoly, bufferPoly, eval_listPoly,
    coeff_listPoly, Vector.length_toList]

/-! ### Registers that generate a sequence -/

section

variable {K : Type*} [Field K] {S P Q B : K[X]} {L M n m : ℕ}

theorem coeff_mul_of_natDegree_le (hP : P.natDegree ≤ L) (hL : L ≤ n) :
    (P * S).coeff n = ∑ i ∈ Finset.range (L + 1), P.coeff i * S.coeff (n - i) := by
  rw [coeff_mul, Finset.Nat.sum_antidiagonal_eq_sum_range_succ_mk]
  refine (Finset.sum_subset (Finset.range_mono (by omega)) fun i _ hi => ?_).symm
  rw [Finset.mem_range] at hi
  rw [coeff_eq_zero_of_natDegree_lt (by omega), zero_mul]

/-- The register of length L with the connection polynomial P generates the first n coefficients of S (R173). -/
structure Generates (S P : K[X]) (L n : ℕ) : Prop where
  constant : P.coeff 0 = 1
  degree : P.natDegree ≤ L
  residual : ∀ j, L ≤ j → j < n → (P * S).coeff j = 0

/-- With P generating n coefficients of S and failing at the next, a register that generates that one too is not short:
the two lengths have the sum n + 1 at least. -/
theorem Generates.length_bound (hP : Generates S P L n) (hQ : Generates S Q M (n + 1))
    (hfail : (P * S).coeff n ≠ 0) : n + 1 ≤ L + M := by
  by_contra hlen
  refine hfail ?_
  have hPQ : (Q * (P * S)).coeff n = (P * S).coeff n := by
    rw [coeff_mul_of_natDegree_le hQ.degree (by omega), Finset.sum_range_succ', hQ.constant, one_mul, Nat.sub_zero,
      Finset.sum_eq_zero fun i hi => ?_, zero_add]
    rw [Finset.mem_range] at hi
    rw [hP.residual _ (by omega) (by omega), mul_zero]
  have hQP : (P * (Q * S)).coeff n = 0 := by
    rw [coeff_mul_of_natDegree_le hP.degree (by omega)]
    refine Finset.sum_eq_zero fun i hi => ?_
    rw [Finset.mem_range] at hi
    rw [hQ.residual _ (by omega) (by omega), mul_zero]
  rw [← hPQ, mul_left_comm, hQP]

/-- The update of C in a round of R173. -/
noncomputable def shiftSub (P B : K[X]) (q : K) (m : ℕ) : K[X] := P - C q * (X ^ m * B)

theorem coeff_shiftSub (P B : K[X]) (q : K) (m j : ℕ) :
    (shiftSub P B q m).coeff j = P.coeff j - q * if m ≤ j then B.coeff (j - m) else 0 := by
  rw [shiftSub, coeff_sub, coeff_C_mul, coeff_X_pow_mul']

theorem shiftSub_mul (P B S : K[X]) (q : K) (m : ℕ) : shiftSub P B q m * S = shiftSub (P * S) (B * S) q m := by
  rw [shiftSub, shiftSub]
  ring

/-- A register that fails at n, mended with one whose first failure, m coefficients earlier, is a multiple of that. -/
theorem Generates.update {old : ℕ} {q : K} (hP : Generates S P L n) (hB : Generates S B old (n - m)) (hm : 1 ≤ m)
    (hlen : old + m + L = n + 1) (hfail : ∀ k, k + m = n → q * (B * S).coeff k = (P * S).coeff n) :
    Generates S (shiftSub P B q m) (max L (n + 1 - L)) (n + 1) where
  constant := by
    rw [coeff_shiftSub, if_neg (by omega), mul_zero, sub_zero, hP.constant]
  degree := by
    have hP' := hP.degree
    have hB' := hB.degree
    refine natDegree_le_iff_coeff_eq_zero.mpr fun i hi => ?_
    rw [coeff_shiftSub, coeff_eq_zero_of_natDegree_lt (by omega), if_pos (by omega),
      coeff_eq_zero_of_natDegree_lt (by omega), mul_zero, sub_zero]
  residual j hj hjn := by
    rw [shiftSub_mul, coeff_shiftSub, if_pos (by omega)]
    obtain hjn | rfl : j < n ∨ j = n := by omega
    · rw [hP.residual j (by omega) hjn, hB.residual (j - m) (by omega) (by omega), mul_zero, sub_zero]
    · rw [hfail (j - m) (by omega), sub_self]

theorem Generates.succ (hP : Generates S P L n) (hn : (P * S).coeff n = 0) : Generates S P L (n + 1) where
  constant := hP.constant
  degree := hP.degree
  residual j hj hjn := by
    obtain hjn | rfl : j < n ∨ j = n := by omega
    · exact hP.residual j hj hjn
    · exact hn

theorem Generates.of_le (hP : Generates S P L n) (hm : m ≤ n) : Generates S P L m :=
  ⟨hP.constant, hP.degree, fun j hj hjm => hP.residual j hj (hjm.trans_le hm)⟩

end

/-! ### The rounds of Berlekamp–Massey -/

theorem embed_bmDiscrepancy {syn : Vector Sym 8} {st : BmState} {n : Nat}
    (h : Generates (bufferPoly syn) (bufferPoly st.c) st.len n) (hn : st.len ≤ n) :
    embed (bmDiscrepancy syn st n) = (bufferPoly st.c * bufferPoly syn).coeff n := by
  rw [coeff_mul_of_natDegree_le h.degree hn, Finset.sum_range_succ', h.constant, one_mul, Nat.sub_zero, add_comm]
  simp only [bmDiscrepancy, embed_gfAdd, embed_gfSum, embed_gfMul, coeff_bufferPoly]

/-- No coefficient of the update is beyond SIG's last, so dropping those loses nothing (R173). -/
theorem bufferPoly_bmUpdate {cur old : Vector Sym 9} {m : Nat} (h : (bufferPoly old).natDegree + m ≤ 8) (coef : Sym) :
    bufferPoly (bmUpdate cur old coef m) = shiftSub (bufferPoly cur) (bufferPoly old) (embed coef) m := by
  ext i
  rw [coeff_bufferPoly, coeff_shiftSub]
  by_cases hi : i < 9
  · rw [coeff_bmUpdate _ _ _ _ hi]
    split_ifs
    · rw [embed_gfSub, embed_gfMul, coeff_bufferPoly, coeff_bufferPoly]
    · rw [mul_zero, sub_zero, coeff_bufferPoly]
  · rw [coeff_of_ge _ (by omega), coeff_bufferPoly, coeff_of_ge _ (by omega), if_pos (by omega),
      coeff_eq_zero_of_natDegree_lt (by omega), mul_zero, sub_zero]

/-- What holds of the variables of R173 before round n: C and L are a shortest register for the syndromes below n, and B
with the length `old`, m rounds ago, was one that failed with the discrepancy b. Before the first length change that
failure is not a coefficient yet (k + m = n has no solution). -/
structure BmInvariant (syn : Vector Sym 8) (n : Nat) (st : BmState) (old : Nat) : Prop where
  age_pos : 1 ≤ st.m
  lengths : old + st.m + st.len = n + 1
  disc_ne_zero : st.disc ≠ 0
  generates : Generates (bufferPoly syn) (bufferPoly st.c) st.len n
  old_generates : Generates (bufferPoly syn) (bufferPoly st.b) old (n - st.m)
  old_fails : ∀ k, k + st.m = n → (bufferPoly st.b * bufferPoly syn).coeff k = embed st.disc
  shortest : ∀ Q M, Generates (bufferPoly syn) Q M n → st.len ≤ M

theorem bufferPoly_bmInit : bufferPoly bmInit.c = 1 ∧ bufferPoly bmInit.b = 1 := by
  simp [bufferPoly, bmInit, listPoly]

theorem bmInvariant_init (syn : Vector Sym 8) : BmInvariant syn 0 bmInit 0 := by
  obtain ⟨hc, hb⟩ := bufferPoly_bmInit
  have hone : Generates (bufferPoly syn) 1 0 0 := ⟨coeff_one_zero, natDegree_one.le, fun _ _ h => absurd h (by omega)⟩
  exact
    { age_pos := Nat.le_refl 1
      lengths := rfl
      disc_ne_zero := by decide
      generates := hc ▸ hone
      old_generates := hb ▸ hone
      old_fails := fun k hk => absurd hk (Nat.succ_ne_zero k)
      shortest := fun _ _ _ => Nat.zero_le _ }

/-- The quotient d ⊗ inv(b) carries the earlier failure b to the present one d. -/
theorem embed_quotient_mul (d : Sym) {b : Sym} (h : b ≠ 0) : embed (gfMul d (gfInv b)) * embed b = embed d := by
  have hinv : embed (gfInv b) * embed b = 1 := by rw [← embed_gfMul, gfMul_comm, gfMul_gfInv h, embed_one]
  rw [embed_gfMul, mul_assoc, hinv, mul_one]

/-- The update of a failing round, whichever length it then takes. -/
theorem BmInvariant.update {syn : Vector Sym 8} {n old : Nat} {st : BmState} (h : BmInvariant syn n st old)
    (hn : n < 8) :
    Generates (bufferPoly syn)
      (bufferPoly (bmUpdate st.c st.b (gfMul (bmDiscrepancy syn st n) (gfInv st.disc)) st.m))
      (max st.len (n + 1 - st.len)) (n + 1) := by
  have hlen := h.lengths
  have hpos := h.age_pos
  have hdeg := h.old_generates.degree
  rw [bufferPoly_bmUpdate (by omega)]
  refine h.generates.update h.old_generates hpos hlen fun k hk => ?_
  rw [h.old_fails k hk, embed_quotient_mul _ h.disc_ne_zero, embed_bmDiscrepancy h.generates (by omega)]

theorem BmInvariant.step {syn : Vector Sym 8} {n old : Nat} {st : BmState} (h : BmInvariant syn n st old)
    (hn : n < 8) :
    ∃ old', BmInvariant syn (n + 1) (bmStep syn st n) old' := by
  have hlen := h.lengths
  have hpos := h.age_pos
  have hdisc := embed_bmDiscrepancy h.generates (by omega)
  have hold : Generates (bufferPoly syn) (bufferPoly st.b) old (n + 1 - (st.m + 1)) := by
    rw [Nat.add_sub_add_right]
    exact h.old_generates
  have hshort : ∀ Q M, Generates (bufferPoly syn) Q M (n + 1) → st.len ≤ M :=
    fun Q M hQ => h.shortest Q M (hQ.of_le (Nat.le_succ n))
  obtain ⟨hd, he⟩ | ⟨hd, hl, he⟩ | ⟨hd, hl, he⟩ := bmStep_cases syn st n <;> rw [he]
  case inl =>
    exact ⟨old,
      { age_pos := by dsimp only; omega
        lengths := by dsimp only; omega
        disc_ne_zero := h.disc_ne_zero
        generates := h.generates.succ (by rw [← hdisc, hd, embed_zero])
        old_generates := hold
        old_fails := fun k hk => h.old_fails k (Nat.succ.inj hk)
        shortest := hshort }⟩
  case inr.inl =>
    have hmax : max st.len (n + 1 - st.len) = n + 1 - st.len := by omega
    have hfail : (bufferPoly st.c * bufferPoly syn).coeff n ≠ 0 := by rwa [← hdisc, Ne, embed_eq_zero_iff]
    refine ⟨st.len,
      { age_pos := Nat.le_refl 1
        lengths := by dsimp only; omega
        disc_ne_zero := hd
        generates := hmax ▸ h.update hn
        old_generates := h.generates
        old_fails := fun k hk => ?_
        shortest := fun Q M hQ => ?_ }⟩
    · obtain rfl : k = n := Nat.succ.inj hk
      exact hdisc.symm
    · have hbound := h.generates.length_bound hQ hfail
      dsimp only
      omega
  case inr.inr =>
    have hmax : max st.len (n + 1 - st.len) = st.len := by omega
    exact ⟨old,
      { age_pos := by dsimp only; omega
        lengths := by dsimp only; omega
        disc_ne_zero := h.disc_ne_zero
        generates := hmax ▸ h.update hn
        old_generates := hold
        old_fails := fun k hk => h.old_fails k (Nat.succ.inj hk)
        shortest := hshort }⟩

theorem bmInvariant_berlekampMassey (syn : Vector Sym 8) {r : Nat} (hr : r ≤ 8) :
    ∃ old, BmInvariant syn r (berlekampMassey r syn) old := by
  induction r with
  | zero => exact ⟨0, bmInvariant_init syn⟩
  | succ r ih =>
    obtain ⟨old, h⟩ := ih (by omega)
    have hlast : berlekampMassey (r + 1) syn = bmStep syn (berlekampMassey r syn) r := by
      simp [berlekampMassey, List.range_succ]
    exact hlast ▸ h.step (by omega)

theorem berlekampMassey_generates (syn : Vector Sym 8) {r : Nat} (hr : r ≤ 8) :
    Generates (bufferPoly syn) (bufferPoly (berlekampMassey r syn).c) (berlekampMassey r syn).len r := by
  obtain ⟨_, h⟩ := bmInvariant_berlekampMassey syn hr
  exact h.generates

theorem berlekampMassey_shortest {syn : Vector Sym 8} {r M : Nat} {Q : SymClosure[X]} (hr : r ≤ 8)
    (hQ : Generates (bufferPoly syn) Q M r) : (berlekampMassey r syn).len ≤ M := by
  obtain ⟨_, h⟩ := bmInvariant_berlekampMassey syn hr
  exact h.shortest Q M hQ

/-! ### Connection polynomials -/

/-- The polynomial of the coefficients c₀ to c_L. -/
noncomputable def connectionPoly (c : Nat → Sym) (L : Nat) : SymClosure[X] := listPoly ((List.range (L + 1)).map c)

theorem coeff_connectionPoly (c : Nat → Sym) (L i : Nat) :
    (connectionPoly c L).coeff i = if i ≤ L then embed (c i) else 0 := by
  rw [connectionPoly, coeff_listPoly]
  split_ifs with h
  · simp [List.getD_eq_getElem?_getD, Nat.lt_succ_of_le h]
  · simp [List.getD_eq_getElem?_getD, Nat.lt_of_not_le h]

theorem natDegree_connectionPoly_le (c : Nat → Sym) (L : Nat) : (connectionPoly c L).natDegree ≤ L :=
  natDegree_le_iff_coeff_eq_zero.mpr fun i hi => by rw [coeff_connectionPoly, if_neg (by omega)]

theorem annihilates_iff {r L : Nat} {syn : Vector Sym 8} {c : Nat → Sym} :
    Annihilates r syn c L ↔ Generates (bufferPoly syn) (connectionPoly c L) L r := by
  have hdeg := natDegree_connectionPoly_le c L
  have hsum (n : Nat) (hn : L ≤ n) :
      embed (gfSum (L + 1) fun i => gfMul (c i) (coeff syn (n - i))) =
        (connectionPoly c L * bufferPoly syn).coeff n := by
    rw [coeff_mul_of_natDegree_le hdeg hn, embed_gfSum]
    refine Finset.sum_congr rfl fun i hi => ?_
    rw [embed_gfMul, coeff_connectionPoly, if_pos (Nat.lt_succ_iff.mp (Finset.mem_range.mp hi)), coeff_bufferPoly]
  have hzero : (connectionPoly c L).coeff 0 = 1 ↔ c 0 = 1 := by
    rw [coeff_connectionPoly, if_pos (Nat.zero_le L), ← embed_one, embed_injective.eq_iff]
  constructor
  · rintro ⟨hc, hres⟩
    exact ⟨hzero.mpr hc, hdeg, fun n hn hnr => by rw [← hsum n hn, hres n hn hnr, embed_zero]⟩
  · rintro ⟨hc, -, hres⟩
    exact ⟨hzero.mp hc, fun n hn hnr => embed_eq_zero_iff.mp ((hsum n hn).trans (hres n hn hnr))⟩

theorem connectionPoly_coeff {n L : Nat} {v : Vector Sym n} (h : (bufferPoly v).natDegree ≤ L) :
    connectionPoly (coeff v) L = bufferPoly v := by
  ext i
  rw [coeff_connectionPoly]
  split_ifs with hi
  · rw [coeff_bufferPoly]
  · rw [coeff_eq_zero_of_natDegree_lt (by omega)]

/-! ### The statements -/

theorem exec_rsBm (s : State) : exec .rsBm s = .next (bmStage s).finish := rfl

/-- Settles O44. -/
theorem rsBmResult : Obligations.RsBmResult := by
  intro s
  have hr := profile_r_le s.st.psel
  have hgen := berlekampMassey_generates s.syn hr
  have hlen := berlekampMassey_len_le s.st.psel.r s.syn
  refine ⟨(berlekampMassey s.st.psel.r s.syn).c, (berlekampMassey s.st.psel.r s.syn).len, hlen, ?_, fun i hi => ?_, ?_⟩
  · have hconst := hgen.constant
    rwa [coeff_bufferPoly, ← embed_one, embed_injective.eq_iff, coeff_of_lt _ (by decide)] at hconst
  · have hdeg := hgen.degree
    have hcoeff := coeff_eq_zero_of_natDegree_lt (hdeg.trans_lt hi)
    rwa [coeff_bufferPoly, embed_eq_zero_iff, coeff_of_lt _ i.isLt] at hcoeff
  · rw [exec_rsBm]
    split_ifs with ht
    · have hunc : (bmStage s).uncorrectable = true := decide_eq_true ht
      rw [finish_of_uncorrectable hunc]
      simp only [bmStage, Status.withOutcome, decide_eq_true ht, Bool.true_or]
    · have hunc : (bmStage s).uncorrectable = false := decide_eq_false ht
      rw [finish_of_correctable hunc, ← ok_append_ofNat (by omega)]
      simp only [bmStage, Status.withOutcome, decide_eq_false ht, Bool.false_or]

/-- Settles O45: the invariant of R173 after the last round. -/
theorem rsBmFindsShortestRegister : Obligations.RsBmFindsShortestRegister := by
  intro s
  have hr := profile_r_le s.st.psel
  have hgen := berlekampMassey_generates s.syn hr
  refine ⟨_, exec_rsBm s, ?_, fun c len hc => berlekampMassey_shortest hr (annihilates_iff.mp hc)⟩
  have hann : Annihilates s.st.psel.r s.syn (coeff (berlekampMassey s.st.psel.r s.syn).c)
      (berlekampMassey s.st.psel.r s.syn).len :=
    annihilates_iff.mpr (by rwa [connectionPoly_coeff hgen.degree])
  exact hann

end Sys2Proof.Machine
end

section
/-! PROOFS. Why RS.DEC corrects (spec/43_rs_decode.md R181 to R184).

`HasErrors r S a` says that the first r coefficients of S are the syndromes of the error values a. Then P·S has at n the
coefficient Σ aᵢ·Xᵢ^(n+1)·P(Xᵢ⁻¹) (`HasErrors.coeff_mul`), from which three things follow: the product of 1 − Xᵢ·x over
a set that holds the errors generates S (`HasErrors.generates_locatorPoly`), so a shortest register is no longer than
that; every register of length L with L + w ≤ r vanishes at the inverse locators of all w errors
(`HasErrors.eval_eq_zero`); and where a shortest register has as many roots as its length, no error value at them is 0
(`HasErrors.ne_zero_of_shortest`). That Forney's values are the errors is the partial fraction expansion of Ω by σ, each
root v giving the cofactor σ/(x − v) (`hasErrors_forney`). -/

namespace Sys2Proof.Machine

open Polynomial

/-! ### Positions as elements of the field -/

/-- X = α^pos (R173). -/
noncomputable def locator (pos : Fin 26) : SymClosure := alphaRoot ^ pos.val

/-- X⁻¹ = α^−pos (R175, R179). -/
noncomputable def locatorInv (pos : Fin 26) : SymClosure := alphaRoot ^ (26 - pos.val)

theorem embed_inverseLocator (pos : Fin 26) : embed (inverseLocator pos.val) = locatorInv pos := by
  rw [inverseLocator_eq_gfPow, embed_gfPow, embed_three, locatorInv]

theorem locator_mul_locatorInv (pos : Fin 26) : locator pos * locatorInv pos = 1 := by
  have hone : gfPow 3 26 = 1 := (gfPow_three_mod 26).symm
  rw [locator, locatorInv, ← pow_add, Nat.add_sub_cancel' pos.isLt.le, ← embed_three, ← embed_gfPow, hone, embed_one]

theorem locator_injective : Function.Injective locator := fun i j h => by
  have hpow : gfPow 3 i.val = gfPow 3 j.val := embed_injective (by simpa [embed_three, locator] using h)
  exact Fin.ext (gfPow_three_injOn i.isLt j.isLt hpow)

theorem locatorInv_injective : Function.Injective locatorInv := fun i j h => by
  refine locator_injective ?_
  rw [eq_inv_of_mul_eq_one_left (locator_mul_locatorInv i), h, ← eq_inv_of_mul_eq_one_left (locator_mul_locatorInv j)]

theorem locator_ne_zero (pos : Fin 26) : locator pos ≠ 0 := left_ne_zero_of_mul_eq_one (locator_mul_locatorInv pos)

/-- Values at the positions of R whose first |R| power sums vanish are zero (Vandermonde). -/
theorem eq_zero_of_powerSums {R : Finset (Fin 26)} {b : Fin 26 → SymClosure}
    (h : ∀ j < R.card, ∑ i ∈ R, b i * locator i ^ j = 0) {i : Fin 26} (hi : i ∈ R) : b i = 0 := by
  have hinj : Set.InjOn locator R := locator_injective.injOn
  have hdeg : (Lagrange.basis R locator i).natDegree < R.card := by
    rw [Lagrange.natDegree_basis hinj hi]
    exact Nat.sub_lt (Finset.card_pos.mpr ⟨i, hi⟩) Nat.one_pos
  calc b i = ∑ k ∈ R, b k * (Lagrange.basis R locator i).eval (locator k) := by
        rw [Finset.sum_eq_single i (fun k hk hki => by rw [Lagrange.eval_basis_of_ne hki.symm hk, mul_zero])
          (fun hni => absurd hi hni), Lagrange.eval_basis_self hinj hi, mul_one]
    _ = ∑ j ∈ Finset.range R.card,
          (Lagrange.basis R locator i).coeff j * ∑ k ∈ R, b k * locator k ^ j := by
        simp only [eval_eq_sum_range' hdeg, Finset.mul_sum]
        rw [Finset.sum_comm]
        exact Finset.sum_congr rfl fun _ _ => Finset.sum_congr rfl fun _ _ => by ring
    _ = 0 := Finset.sum_eq_zero fun j hj => by rw [h j (Finset.mem_range.mp hj), mul_zero]

/-! ### Syndromes of error values -/

/-- The first r coefficients of S are the syndromes of the error values a: Sⱼ = Σ aᵢ·Xᵢ^(j+1) (R171). -/
def HasErrors (r : ℕ) (S : SymClosure[X]) (a : Fin 26 → SymClosure) : Prop :=
  ∀ j < r, S.coeff j = ∑ i, a i * locator i ^ (j + 1)

section

variable {r n L : ℕ} {S P : SymClosure[X]} {a : Fin 26 → SymClosure} {R : Finset (Fin 26)}

theorem HasErrors.coeff_mul (h : HasErrors r S a) (hP : P.natDegree ≤ n) (hn : n < r) :
    (P * S).coeff n = ∑ i, a i * locator i ^ (n + 1) * P.eval (locatorInv i) := by
  have hshift (i : Fin 26) {k : ℕ} (hk : k < n + 1) :
      locator i ^ (n - k + 1) = locator i ^ (n + 1) * locatorInv i ^ k := by
    rw [show n + 1 = n - k + 1 + k by omega, pow_add _ (n - k + 1), mul_assoc, ← mul_pow, locator_mul_locatorInv,
      one_pow, mul_one]
  calc (P * S).coeff n
      = ∑ k ∈ Finset.range (n + 1), ∑ i, P.coeff k * (a i * (locator i ^ (n + 1) * locatorInv i ^ k)) := by
        rw [coeff_mul_of_natDegree_le hP le_rfl]
        refine Finset.sum_congr rfl fun k hk => ?_
        rw [h (n - k) (by omega), Finset.mul_sum]
        exact Finset.sum_congr rfl fun i _ => by rw [hshift i (Finset.mem_range.mp hk)]
    _ = ∑ i, a i * locator i ^ (n + 1) * P.eval (locatorInv i) := by
        rw [Finset.sum_comm]
        refine Finset.sum_congr rfl fun i _ => ?_
        rw [eval_eq_sum_range' (Nat.lt_succ_of_le hP), Finset.mul_sum]
        exact Finset.sum_congr rfl fun k _ => by ring

/-- Π (1 − Xᵢ·x), the error locator of a set of positions (R173). -/
noncomputable def locatorPoly (R : Finset (Fin 26)) : SymClosure[X] := ∏ i ∈ R, (1 - C (locator i) * X)

theorem eval_locatorPoly {i : Fin 26} (hi : i ∈ R) : (locatorPoly R).eval (locatorInv i) = 0 := by
  rw [locatorPoly, eval_prod]
  exact Finset.prod_eq_zero hi (by simp [locator_mul_locatorInv])

theorem natDegree_locatorPoly_le (R : Finset (Fin 26)) : (locatorPoly R).natDegree ≤ R.card := by
  have hlinear (i : Fin 26) : (1 - C (locator i) * X : SymClosure[X]).natDegree ≤ 1 := by compute_degree
  calc (locatorPoly R).natDegree ≤ ∑ i ∈ R, (1 - C (locator i) * X : SymClosure[X]).natDegree := natDegree_prod_le _ _
    _ ≤ ∑ _i ∈ R, 1 := Finset.sum_le_sum fun i _ => hlinear i
    _ = R.card := (Finset.card_eq_sum_ones R).symm

/-- The locator of a set that holds every error generates the syndromes. -/
theorem HasErrors.generates_locatorPoly (h : HasErrors r S a) (hR : ∀ i ∉ R, a i = 0) :
    Generates S (locatorPoly R) R.card r where
  constant := by simp [locatorPoly, coeff_zero_prod]
  degree := natDegree_locatorPoly_le R
  residual n hn hnr := by
    rw [h.coeff_mul ((natDegree_locatorPoly_le R).trans hn) hnr]
    refine Finset.sum_eq_zero fun i _ => ?_
    by_cases hi : i ∈ R
    · rw [eval_locatorPoly hi, mul_zero]
    · rw [hR i hi, zero_mul, zero_mul]

/-- A short register vanishes at the inverse locator of every error. -/
theorem HasErrors.eval_eq_zero (h : HasErrors r S a) (hR : ∀ i ∉ R, a i = 0) (hP : Generates S P L r)
    (hL : L + R.card ≤ r) {i : Fin 26} (hi : a i ≠ 0) : P.eval (locatorInv i) = 0 := by
  have hmem : i ∈ R := by_contra fun hni => hi (hR i hni)
  have hsums : ∀ j < R.card, ∑ k ∈ R, a k * locator k ^ (L + 1) * P.eval (locatorInv k) * locator k ^ j = 0 := by
    intro j hj
    rw [← hP.residual (L + j) (by omega) (by omega), h.coeff_mul (by have := hP.degree; omega) (by omega)]
    refine (Finset.sum_congr rfl fun k _ => ?_).trans
      (Finset.sum_subset (Finset.subset_univ R) fun k _ hk => by rw [hR k hk, zero_mul, zero_mul])
    ring
  have hzero := eq_zero_of_powerSums hsums hmem
  exact (mul_eq_zero.mp hzero).resolve_left (mul_ne_zero hi (pow_ne_zero _ (locator_ne_zero i)))

/-- An error value 0 at a position of R would leave a shorter register. -/
theorem HasErrors.ne_zero_of_shortest (h : HasErrors r S a) (hR : ∀ i ∉ R, a i = 0)
    (hshort : ∀ Q M, Generates S Q M r → R.card ≤ M) {i : Fin 26} (hi : i ∈ R) : a i ≠ 0 := by
  intro hzero
  have hR' : ∀ k ∉ R.erase i, a k = 0 := fun k hk => by
    by_cases hki : k = i
    · rw [hki, hzero]
    · exact hR k fun hkR => hk (Finset.mem_erase.mpr ⟨hki, hkR⟩)
  exact absurd (hshort _ _ (h.generates_locatorPoly hR')) (Nat.not_le.mpr (Finset.card_erase_lt_of_mem hi))

end

/-! ### Forney's values -/

section

variable {K : Type*} [Field K] {P : K[X]} {u v : K}

/-- P/(x − v), for a root v of P. -/
noncomputable def cofactor (P : K[X]) (v : K) : K[X] := P /ₘ (X - C v)

theorem mul_cofactor (h : P.eval v = 0) : (X - C v) * cofactor P v = P := mul_divByMonic_eq_iff_isRoot.mpr h

theorem eval_derivative_of_root (h : P.eval v = 0) : (Polynomial.derivative P).eval v = (cofactor P v).eval v := by
  conv_lhs => rw [← mul_cofactor h]
  simp

theorem eval_cofactor_of_ne (h : P.eval v = 0) (hu : P.eval u = 0) (huv : u ≠ v) : (cofactor P v).eval u = 0 := by
  have hmul := congrArg (Polynomial.eval u) (mul_cofactor h)
  rw [eval_mul, eval_sub, eval_X, eval_C, hu] at hmul
  exact (mul_eq_zero.mp hmul).resolve_left (sub_ne_zero.mpr huv)

theorem degree_cofactor_lt (hP : P ≠ 0) : (cofactor P v).degree < P.natDegree := by
  rw [← degree_eq_natDegree hP]
  exact degree_divByMonic_lt P (X - C v) hP (by rw [degree_X_sub_C]; exact one_pos)

/-- x·(1 + x·X + x²·X² + …) below degree r: the syndromes of the single error value 1 at the locator x. -/
noncomputable def singleError (r : ℕ) (x : K) : K[X] := ∑ j ∈ Finset.range r, C (x ^ (j + 1)) * X ^ j

theorem coeff_singleError {r j : ℕ} (x : K) (hj : j < r) : (singleError r x).coeff j = x ^ (j + 1) := by
  simp [singleError, finsetSum_coeff, coeff_X_pow, hj, -map_pow]

/-- The series of x/(1 − x·X) is that of −1/(X − x⁻¹). -/
theorem X_pow_dvd_mul_singleError {x : K} (h : x * v = 1) (r : ℕ) : X ^ r ∣ (X - C v) * singleError r x + 1 := by
  rw [X_pow_dvd_iff]
  intro j hj
  rw [coeff_add, sub_mul, coeff_sub, coeff_C_mul, coeff_singleError x hj]
  cases j with
  | zero => simp [mul_comm v, h]
  | succ j =>
    rw [coeff_X_mul, coeff_singleError x (Nat.lt_of_succ_lt hj), coeff_one, if_neg (Nat.succ_ne_zero j)]
    linear_combination -x ^ (j + 1) * h

end

section

variable {r : ℕ} {S P W : SymClosure[X]} {R : Finset (Fin 26)}

/-- A register with as many roots as its length has no multiple root. -/
theorem Generates.eval_derivative_ne_zero (hP : Generates S P R.card r) (hroot : ∀ i ∈ R, P.eval (locatorInv i) = 0)
    {i : Fin 26} (hi : i ∈ R) : (Polynomial.derivative P).eval (locatorInv i) ≠ 0 := by
  rw [eval_derivative_of_root (hroot i hi)]
  intro hzero
  have hne : P ≠ 0 := fun h => by simpa [h] using hP.constant
  have hdeg : (cofactor P (locatorInv i)).degree < R.card :=
    (degree_cofactor_lt hne).trans_le (by exact_mod_cast hP.degree)
  have hcofactor : cofactor P (locatorInv i) = 0 :=
    eq_zero_of_degree_lt_of_eval_index_eq_zero _ locatorInv_injective.injOn hdeg fun k hk => by
      by_cases hki : k = i
      · rw [hki, hzero]
      · exact eval_cofactor_of_ne (hroot i hi) (hroot k hk) (locatorInv_injective.ne hki)
  exact hne (by rw [← mul_cofactor (hroot i hi), hcofactor, mul_zero])

/-- Forney's values at the positions of R, 0 elsewhere: −Ω(X⁻¹)/σ′(X⁻¹) (R179). -/
noncomputable def forneyValue (P W : SymClosure[X]) (R : Finset (Fin 26)) (i : Fin 26) : SymClosure :=
  if i ∈ R then -(W.eval (locatorInv i) / (Polynomial.derivative P).eval (locatorInv i)) else 0

/-- The partial fraction expansion of Ω by σ: both sides have degree below |R| and agree at the |R| roots. -/
theorem Generates.evaluator_eq_sum (hP : Generates S P R.card r) (hroot : ∀ i ∈ R, P.eval (locatorInv i) = 0)
    (hW : W.degree < R.card) :
    W = ∑ i ∈ R, -C (forneyValue P W R i) * cofactor P (locatorInv i) := by
  have hne : P ≠ 0 := fun h => by simpa [h] using hP.constant
  refine eq_of_degrees_lt_of_eval_index_eq _ locatorInv_injective.injOn hW ?_ fun k hk => ?_
  · refine mem_degreeLT.mp (Submodule.sum_mem _ fun i _ => ?_)
    rw [← C_neg, ← smul_eq_C_mul]
    exact Submodule.smul_mem _ _
      (mem_degreeLT.mpr ((degree_cofactor_lt hne).trans_le (by exact_mod_cast hP.degree)))
  · have hden := hP.eval_derivative_ne_zero hroot hk
    rw [eval_finsetSum, Finset.sum_eq_single k
      (fun i hi hik => by rw [eval_mul, eval_cofactor_of_ne (hroot i hi) (hroot k hk)
        (locatorInv_injective.ne hik.symm), mul_zero]) (fun hni => absurd hk hni),
      eval_mul, eval_neg, eval_C, forneyValue, if_pos hk, ← eval_derivative_of_root (hroot k hk), neg_neg,
      div_mul_cancel₀ _ hden]

/-- With Ω = σ·S mod x^r and as many roots of σ as its length, Forney's values are errors with the syndromes S. -/
theorem Generates.hasErrors_forney (hP : Generates S P R.card r) (hroot : ∀ i ∈ R, P.eval (locatorInv i) = 0)
    (hW : W.degree < R.card) (hkey : X ^ r ∣ P * S - W) : HasErrors r S (forneyValue P W R) := by
  have hexpand := hP.evaluator_eq_sum hroot hW
  have houtside : ∀ i ∉ R, forneyValue P W R i = 0 := fun i hi => if_neg hi
  generalize forneyValue P W R = a at hexpand houtside ⊢
  have hdvd : X ^ r ∣ P * (S - ∑ i ∈ R, C (a i) * singleError r (locator i)) := by
    have hsum : P * (S - ∑ i ∈ R, C (a i) * singleError r (locator i)) =
        (P * S - W) - ∑ i ∈ R, C (a i) * cofactor P (locatorInv i) *
          ((X - C (locatorInv i)) * singleError r (locator i) + 1) := by
      rw [hexpand, mul_sub, sub_sub, ← Finset.sum_add_distrib, Finset.mul_sum]
      congr 1
      refine Finset.sum_congr rfl fun i hi => ?_
      linear_combination -C (a i) * singleError r (locator i) * mul_cofactor (hroot i hi)
    rw [hsum]
    exact dvd_sub hkey (Finset.dvd_sum fun i _ =>
      (X_pow_dvd_mul_singleError (locator_mul_locatorInv i) r).mul_left _)
  have hX : ¬(X : SymClosure[X]) ∣ P := by
    rw [X_dvd_iff, hP.constant]
    exact one_ne_zero
  have hzero := X_pow_dvd_iff.mp (prime_X.pow_dvd_of_dvd_mul_left r hX hdvd)
  intro j hj
  rw [sub_eq_zero.mp ((coeff_sub _ _ j).symm.trans (hzero j hj)), finsetSum_coeff]
  refine (Finset.sum_congr rfl fun i _ => by rw [coeff_C_mul, coeff_singleError _ hj]).trans
    (Finset.sum_subset (Finset.subset_univ R) fun i _ hi => by rw [houtside i hi, zero_mul])

end

end Sys2Proof.Machine
end

section
/-! PROOFS. The guarantees of RS.DEC (spec/43_rs_decode.md R181 to R184), from the errors its registers describe.

When RS.BM gives a register of length L ≤ t and RS.CHIEN finds L roots, Forney's values are errors with the syndromes of
CW, so subtracting them leaves a codeword (`decodedWord_isCodeword`), and none of them is 0, so exactly L symbols change
(`differences_decodedWord`). When CW is a codeword with w ≤ t errors, the register has length w and the w error
positions as its roots (`errors_located`); the decoded word and the codeword then differ in at most r positions, which
two codewords cannot do unless they are the same. -/

namespace Sys2Proof.Machine

open Polynomial

/-! ### Counts as cardinalities -/

theorem countP_finRange {n : Nat} (f : Fin n → Bool) :
    (List.finRange n).countP f = (Finset.univ.filter (f ·)).card := by
  rw [List.countP_eq_length_filter]
  simp [Finset.filter, Finset.card, Finset.univ, Fintype.elems]

/-- The positions at which two words differ. -/
def differing (v w : Vector Sym 26) : Finset (Fin 26) := Finset.univ.filter fun i => v[i] ≠ w[i]

theorem mem_differing {v w : Vector Sym 26} {i : Fin 26} : i ∈ differing v w ↔ v[i] ≠ w[i] := by simp [differing]

theorem differences_eq_card (v w : Vector Sym 26) : differences v w = (differing v w).card := by
  rw [differences, countP_finRange]
  simp [differing]

/-- The positions of the symbols that are not zero. -/
def support (e : Vector Sym 26) : Finset (Fin 26) := Finset.univ.filter fun i => e[i] ≠ 0

theorem mem_support {e : Vector Sym 26} {i : Fin 26} : i ∈ support e ↔ e[i] ≠ 0 := by simp [support]

theorem weight_eq_card (e : Vector Sym 26) : weight e = (support e).card := by
  rw [weight, countP_finRange]
  simp [support]

/-- The positions marked in LOC. -/
def marked (loc : Vector Bool 26) : Finset (Fin 26) := Finset.univ.filter fun i => loc[i] = true

theorem mem_marked {loc : Vector Bool 26} {i : Fin 26} : i ∈ marked loc ↔ loc[i] = true := by simp [marked]

theorem rootCount_eq_card (loc : Vector Bool 26) : rootCount loc = (marked loc).card := by
  rw [rootCount_eq_locCount, locCount, countP_finRange]
  rfl

/-! ### The syndromes of a word -/

/-- The symbols of a word as values in the field. -/
noncomputable def values (v : Vector Sym 26) (i : Fin 26) : SymClosure := embed v[i]

theorem embed_syndrome_eq_sum (v : Vector Sym 26) (j : Nat) :
    embed (syndrome v j) = ∑ i, values v i * locator i ^ (j + 1) := by
  rw [syndrome, embed_gfSum, Config.codeLength, Finset.sum_range]
  refine Finset.sum_congr rfl fun i _ => ?_
  rw [embed_gfMul, embed_alphaPow, coeff_of_lt v i.isLt, locator, ← pow_mul, Nat.mul_comm]
  rfl

theorem hasErrors_iff {p : Profile} {v : Vector Sym 26} {a : Fin 26 → SymClosure} :
    HasErrors p.r (bufferPoly (syndromes p.r v)) a ↔
      ∀ j < p.r, embed (syndrome v j) = ∑ i, a i * locator i ^ (j + 1) := by
  refine forall₂_congr fun j hj => ?_
  rw [coeff_bufferPoly, coeff_syndromes v (hj.trans_le (profile_r_le p)), if_pos hj]

/-- Two codewords that differ in r positions at most are the same. -/
theorem eq_of_differences_le {p : Profile} {v w : Vector Sym 26} (hv : IsCodeword p v) (hw : IsCodeword p w)
    (h : (differing v w).card ≤ p.r) : v = w := by
  have hsum : ∀ j < (differing v w).card,
      ∑ i ∈ differing v w, (values v i - values w i) * locator i * locator i ^ j = 0 := by
    intro j hj
    have hdiff : ∑ i, (values v i - values w i) * locator i ^ (j + 1) = 0 := by
      simp only [sub_mul, Finset.sum_sub_distrib, ← embed_syndrome_eq_sum, hv j (by omega), hw j (by omega), sub_self]
    rw [← hdiff]
    refine (Finset.sum_congr rfl fun i _ => by ring).trans
      (Finset.sum_subset (Finset.subset_univ _) fun i _ hi => ?_)
    have heq : v[i] = w[i] := not_not.mp (mt mem_differing.mpr hi)
    rw [values, values, heq, sub_self, zero_mul]
  refine Vector.ext fun i hi => by_contra fun hne => ?_
  have hmem : (⟨i, hi⟩ : Fin 26) ∈ differing v w := mem_differing.mpr hne
  have hzero := (mul_eq_zero.mp (eq_zero_of_powerSums hsum hmem)).resolve_right (locator_ne_zero _)
  exact hne (embed_injective (sub_eq_zero.mp hzero))

/-! ### The stages as polynomials -/

theorem mem_marked_chienSearch {sig : Vector Sym 9} {i : Fin 26} :
    i ∈ marked (chienSearch sig) ↔ (bufferPoly sig).eval (locatorInv i) = 0 := by
  rw [← embed_inverseLocator, ← embed_polyEval, embed_eq_zero_iff, ← locatorAt_eq_polyEval]
  simp [marked, chienSearch]

theorem natCast_mod_three (n : ℕ) : ((n % 3 : ℕ) : SymClosure) = n := (CharP.cast_eq_mod SymClosure 3 n).symm

/-- R178: in characteristic 3 the factor i is i mod 3. -/
theorem bufferPoly_derivative (sig : Vector Sym 9) :
    bufferPoly (derivative sig) = Polynomial.derivative (bufferPoly sig) := by
  ext i
  rw [coeff_bufferPoly, coeff_derivative, coeff_bufferPoly, ← Nat.cast_succ, ← natCast_mod_three]
  by_cases hi : i < 8
  · rw [derivative, coeff_ofFn _ hi]
    dsimp only
    have hmod : (i + 1) % 3 < 3 := Nat.mod_lt _ (by decide)
    split_ifs with h0 h1
    · simp [h0]
    · simp [h1]
    · have h2 : (i + 1) % 3 = 2 := by omega
      rw [h2, embed_gfAdd]
      push_cast
      ring
  · rw [coeff_of_ge _ (by omega), coeff_of_ge _ (by omega), embed_zero, zero_mul]

theorem embed_forneyDenominator (sig : Vector Sym 9) (i : Fin 26) :
    embed (forneyDenominator sig i.val) = (Polynomial.derivative (bufferPoly sig)).eval (locatorInv i) := by
  rw [forneyDenominator, embed_polyEval, locatorInverse_eq, embed_inverseLocator, bufferPoly_derivative]

theorem embed_gfInv (a : Sym) : embed (gfInv a) = (embed a)⁻¹ := by
  by_cases ha : a = 0
  · rw [ha, embed_zero, inv_zero]
    exact embed_zero
  · refine eq_inv_of_mul_eq_one_right ?_
    rw [← embed_gfMul, gfMul_gfInv ha, embed_one]

theorem embed_forneyMagnitude (omg : Vector Sym 8) (sig : Vector Sym 9) (i : Fin 26) :
    embed (forneyMagnitude omg sig i.val) =
      -((bufferPoly omg).eval (locatorInv i) / (Polynomial.derivative (bufferPoly sig)).eval (locatorInv i)) := by
  rw [forneyMagnitude, embed_gfNeg, embed_gfMul, embed_gfInv, embed_forneyDenominator, embed_polyEval,
    locatorInverse_eq, embed_inverseLocator, div_eq_mul_inv]

theorem coeff_bufferPoly_evaluator {r i : Nat} (hr : r ≤ 8) (sig : Vector Sym 9) (syn : Vector Sym 8) :
    (bufferPoly (evaluator r sig syn)).coeff i = if i < r then (bufferPoly sig * bufferPoly syn).coeff i else 0 := by
  rw [coeff_bufferPoly]
  by_cases hi : i < 8
  · rw [coeff_evaluator sig syn hi]
    split_ifs
    · rw [coeff_mul, Finset.Nat.sum_antidiagonal_eq_sum_range_succ_mk, embed_gfSum]
      simp only [embed_gfMul, coeff_bufferPoly]
    · exact embed_zero
  · rw [coeff_of_ge _ (by omega), embed_zero, if_neg (by omega)]

theorem degree_evaluator_lt {r L : Nat} (hr : r ≤ 8) {sig : Vector Sym 9} {syn : Vector Sym 8}
    (h : Generates (bufferPoly syn) (bufferPoly sig) L r) : (bufferPoly (evaluator r sig syn)).degree < L := by
  rw [degree_lt_iff_coeff_zero]
  intro i hi
  rw [coeff_bufferPoly_evaluator hr]
  split_ifs with hir
  · exact h.residual i hi hir
  · rfl

/-- R177: Ω = σ·S mod x^r. -/
theorem X_pow_dvd_sub_evaluator {r : Nat} (hr : r ≤ 8) (sig : Vector Sym 9) (syn : Vector Sym 8) :
    X ^ r ∣ bufferPoly sig * bufferPoly syn - bufferPoly (evaluator r sig syn) :=
  X_pow_dvd_iff.mpr fun i hi => by rw [coeff_sub, coeff_bufferPoly_evaluator hr, if_pos hi, sub_self]

/-! ### The decoder on a word -/

/-- What RS.SYN and RS.BM make of a word: σ and L. -/
def registerOf (p : Profile) (v : Vector Sym 26) : BmState := berlekampMassey p.r (syndromes p.r v)

/-- The positions RS.CHIEN marks for a word. -/
def rootsOf (p : Profile) (v : Vector Sym 26) : Finset (Fin 26) := marked (chienSearch (registerOf p v).c)

/-- What RS.FORNEY makes of a word when no denominator is zero. -/
def decodedWord (p : Profile) (v : Vector Sym 26) : Vector Sym 26 :=
  corrected v (evaluator p.r (registerOf p v).c (syndromes p.r v)) (registerOf p v).c (chienSearch (registerOf p v).c)

section

variable {p : Profile} {v : Vector Sym 26}

theorem registerOf_generates (p : Profile) (v : Vector Sym 26) :
    Generates (bufferPoly (syndromes p.r v)) (bufferPoly (registerOf p v).c) (registerOf p v).len p.r :=
  berlekampMassey_generates _ (profile_r_le p)

theorem mem_rootsOf {i : Fin 26} : i ∈ rootsOf p v ↔ (bufferPoly (registerOf p v).c).eval (locatorInv i) = 0 :=
  mem_marked_chienSearch

theorem decodedWord_of_mem {i : Fin 26} (hi : i ∈ rootsOf p v) :
    (decodedWord p v)[i] =
      gfSub v[i] (forneyMagnitude (evaluator p.r (registerOf p v).c (syndromes p.r v)) (registerOf p v).c i.val) := by
  have hloc : (chienSearch (registerOf p v).c)[i] = true := mem_marked.mp hi
  rw [decodedWord, corrected_getElem, hloc, if_pos rfl]

theorem decodedWord_of_not_mem {i : Fin 26} (hi : i ∉ rootsOf p v) : (decodedWord p v)[i] = v[i] := by
  have hloc : (chienSearch (registerOf p v).c)[i] ≠ true := fun h => hi (mem_marked.mpr h)
  rw [decodedWord, corrected_getElem, if_neg hloc]

/-- Forney's values for a word, 0 at the positions that are no roots. -/
noncomputable def valuesOf (p : Profile) (v : Vector Sym 26) : Fin 26 → SymClosure :=
  forneyValue (bufferPoly (registerOf p v).c)
    (bufferPoly (evaluator p.r (registerOf p v).c (syndromes p.r v))) (rootsOf p v)

theorem valuesOf_of_not_mem {i : Fin 26} (hi : i ∉ rootsOf p v) : valuesOf p v i = 0 := by
  rw [valuesOf, forneyValue, if_neg hi]

theorem values_decodedWord (i : Fin 26) : values (decodedWord p v) i = values v i - valuesOf p v i := by
  by_cases hi : i ∈ rootsOf p v
  · rw [values, decodedWord_of_mem hi, embed_gfSub, embed_forneyMagnitude, valuesOf, forneyValue, if_pos hi, values]
  · rw [valuesOf_of_not_mem hi, sub_zero, values, decodedWord_of_not_mem hi, values]

variable (hcount : (registerOf p v).len = (rootsOf p v).card)

include hcount

theorem registerOf_generates_card :
    Generates (bufferPoly (syndromes p.r v)) (bufferPoly (registerOf p v).c) (rootsOf p v).card p.r :=
  hcount ▸ registerOf_generates p v

/-- R181: inside RS.DEC the stage RS.FORNEY cannot fail. -/
theorem forneyFails_eq_false : forneyFails (registerOf p v).c (chienSearch (registerOf p v).c) = false := by
  refine Bool.eq_false_iff.mpr fun hfail => ?_
  obtain ⟨i, hloc, hden⟩ := forneyFails_iff.mp hfail
  have hi : i ∈ rootsOf p v := mem_marked.mpr hloc
  refine (registerOf_generates_card hcount).eval_derivative_ne_zero (fun _ => mem_rootsOf.mp) hi ?_
  rw [← embed_forneyDenominator, hden, embed_zero]

theorem hasErrors_valuesOf : HasErrors p.r (bufferPoly (syndromes p.r v)) (valuesOf p v) :=
  (registerOf_generates_card hcount).hasErrors_forney (fun _ => mem_rootsOf.mp)
    (degree_evaluator_lt (profile_r_le p) (registerOf_generates_card hcount))
    (X_pow_dvd_sub_evaluator (profile_r_le p) _ _)

theorem decodedWord_isCodeword : IsCodeword p (decodedWord p v) := by
  intro j hj
  have hval := hasErrors_iff.mp (hasErrors_valuesOf hcount) j hj
  refine embed_eq_zero_iff.mp ?_
  rw [embed_syndrome_eq_sum]
  simp only [values_decodedWord, sub_mul, Finset.sum_sub_distrib]
  rw [← embed_syndrome_eq_sum, hval, sub_self]

theorem valuesOf_ne_zero {i : Fin 26} (hi : i ∈ rootsOf p v) : valuesOf p v i ≠ 0 :=
  (hasErrors_valuesOf hcount).ne_zero_of_shortest (fun _ => valuesOf_of_not_mem)
    (fun _ _ hQ => hcount ▸ berlekampMassey_shortest (profile_r_le p) hQ) hi

theorem differing_decodedWord : differing v (decodedWord p v) = rootsOf p v := by
  ext i
  have hdiff : values v i - values (decodedWord p v) i = valuesOf p v i := by
    rw [values_decodedWord, sub_sub_cancel]
  rw [mem_differing, Ne, ← embed_injective.eq_iff, ← values, ← values, ← sub_eq_zero, hdiff]
  exact ⟨fun h => by_contra fun hni => h (valuesOf_of_not_mem hni), valuesOf_ne_zero hcount⟩

theorem differences_decodedWord : differences v (decodedWord p v) = (registerOf p v).len := by
  rw [differences_eq_card, differing_decodedWord hcount, hcount]

end

/-! ### A codeword with errors -/

section

variable {p : Profile} {v e : Vector Sym 26}

theorem two_mul_t_le (p : Profile) : 2 * p.t ≤ p.r := Nat.mul_div_le p.r 2

theorem values_of_not_mem_support {i : Fin 26} (hi : i ∉ support e) : values e i = 0 := by
  have hzero : e[i] = 0 := not_not.mp (mt mem_support.mpr hi)
  rw [values, hzero, embed_zero]

theorem values_ne_zero_of_mem_support {i : Fin 26} (hi : i ∈ support e) : values e i ≠ 0 := by
  rw [values, Ne, embed_eq_zero_iff]
  exact mem_support.mp hi

theorem wordAdd_getElem (v e : Vector Sym 26) (i : Fin 26) : (wordAdd v e)[i] = gfAdd v[i] e[i] := by simp [wordAdd]

theorem differing_wordAdd (v e : Vector Sym 26) : differing (wordAdd v e) v = support e := by
  ext i
  have hiff : gfAdd v[i] e[i] = v[i] ↔ e[i] = 0 := by
    rw [← embed_injective.eq_iff, embed_gfAdd, add_eq_left, embed_eq_zero_iff]
  rw [mem_differing, mem_support, wordAdd_getElem, Ne, Ne, hiff]

theorem hasErrors_wordAdd (hv : IsCodeword p v) :
    HasErrors p.r (bufferPoly (syndromes p.r (wordAdd v e))) (values e) :=
  hasErrors_iff.mpr fun j hj => by
    rw [syndrome_wordAdd, embed_gfAdd, hv j hj, embed_zero, zero_add, embed_syndrome_eq_sum]

variable (hv : IsCodeword p v) (he : weight e ≤ p.t)

include hv he

/-- With at most t errors the roots are the error positions, and as many as the register is long. -/
theorem errors_located :
    rootsOf p (wordAdd v e) = support e ∧ (registerOf p (wordAdd v e)).len = (rootsOf p (wordAdd v e)).card := by
  have hr := profile_r_le p
  have ht := two_mul_t_le p
  have herr := hasErrors_wordAdd (e := e) hv
  have hgen := registerOf_generates p (wordAdd v e)
  rw [weight_eq_card] at he
  have hshort : (registerOf p (wordAdd v e)).len ≤ (support e).card :=
    berlekampMassey_shortest hr (herr.generates_locatorPoly fun _ => values_of_not_mem_support)
  have hsub : support e ⊆ rootsOf p (wordAdd v e) := fun i hi =>
    mem_rootsOf.mpr (herr.eval_eq_zero (fun _ => values_of_not_mem_support) hgen (by omega)
      (values_ne_zero_of_mem_support hi))
  have hne : bufferPoly (registerOf p (wordAdd v e)).c ≠ 0 := fun h => by simpa [h] using hgen.constant
  have hroots : (rootsOf p (wordAdd v e)).card ≤ (registerOf p (wordAdd v e)).len := by
    by_contra hlt
    refine hne (eq_zero_of_degree_lt_of_eval_index_eq_zero _ locatorInv_injective.injOn
      (degree_le_natDegree.trans_lt ?_) fun _ => mem_rootsOf.mp)
    exact_mod_cast hgen.degree.trans_lt (Nat.lt_of_not_le hlt)
  have heq := Finset.eq_of_subset_of_card_le hsub (hroots.trans hshort)
  exact ⟨heq.symm, le_antisymm (heq ▸ hshort) hroots⟩

theorem decodedWord_wordAdd : decodedWord p (wordAdd v e) = v := by
  obtain ⟨hroots, hcount⟩ := errors_located hv he
  refine eq_of_differences_le (decodedWord_isCodeword hcount) hv ?_
  have hsub : differing (decodedWord p (wordAdd v e)) v ⊆ support e := fun i hi => by
    by_contra hni
    have hroot : i ∉ rootsOf p (wordAdd v e) := hroots ▸ hni
    rw [← differing_wordAdd v e, mem_differing, ← decodedWord_of_not_mem hroot] at hni
    exact hni (mem_differing.mp hi)
  have hcard := Finset.card_le_card hsub
  rw [weight_eq_card] at he
  have ht := two_mul_t_le p
  omega

end

/-! ### The statements -/

theorem bmStage_synStage_uncorrectable (s : State) :
    (bmStage (synStage s)).uncorrectable = decide (s.st.psel.t < (registerOf s.st.psel s.cw).len) := rfl

/-- The state RS.DEC has reached after its third stage. -/
def afterChien (s : State) : State := (chienStage (bmStage (synStage s)).state).state

theorem afterChien_sig (s : State) : (afterChien s).sig = (registerOf s.st.psel s.cw).c := by
  rw [afterChien, chienStage_sig, bmStage_sig, synStage_syn, synStage_st_psel, registerOf]

theorem afterChien_loc (s : State) : (afterChien s).loc = chienSearch (registerOf s.st.psel s.cw).c := by
  rw [afterChien, chienStage_loc, bmStage_sig, synStage_syn, synStage_st_psel, registerOf]

theorem afterChien_syn (s : State) : (afterChien s).syn = syndromes s.st.psel.r s.cw := by
  rw [afterChien, chienStage_syn, bmStage_syn, synStage_syn]

theorem afterChien_cw (s : State) : (afterChien s).cw = s.cw := by
  rw [afterChien, chienStage_cw, bmStage_cw, synStage_cw]

theorem afterChien_psel (s : State) : (afterChien s).st.psel = s.st.psel := by
  rw [afterChien, chienStage_st_psel, bmStage_st_psel, synStage_st_psel]

theorem afterChien_responses (s : State) : (afterChien s).responses = s.responses := by
  rw [afterChien, chienStage_responses, bmStage_responses, synStage_responses]

theorem afterChien_lasterr (s : State) : (afterChien s).st.lasterr = s.st.lasterr := by
  rw [afterChien, chienStage_st_lasterr, bmStage_st_lasterr, synStage_st_lasterr]

theorem chienStage_bmStage_uncorrectable_iff (s : State) :
    (chienStage (bmStage (synStage s)).state).uncorrectable = true ↔
      (registerOf s.st.psel s.cw).len ≠ (rootsOf s.st.psel s.cw).card := by
  rw [chienStage_uncorrectable, bne_iff_ne, bmStage_sig, bmStage_st_len, synStage_syn, synStage_st_psel, ne_comm,
    rootCount_eq_card, rootsOf, registerOf]

/-- What RS.DEC reaches when its four stages end well. -/
structure Decodes (s t : State) : Prop where
  located : (registerOf s.st.psel s.cw).len = (rootsOf s.st.psel s.cw).card
  cw_eq : t.cw = decodedWord s.st.psel s.cw
  loc_eq : marked t.loc = rootsOf s.st.psel s.cw
  responses_eq : t.responses = s.responses ++ [BitVec.ofNat 32 (registerOf s.st.psel s.cw).len]
  unc_eq : t.st.unc = false
  lasterr_eq : t.st.lasterr = s.st.lasterr

theorem decodes_forneyStage {s : State} (hbm : (bmStage (synStage s)).uncorrectable = false)
    (hchien : (chienStage (bmStage (synStage s)).state).uncorrectable = false) :
    Decodes s (forneyStage (afterChien s)).finish := by
  have hcount : (registerOf s.st.psel s.cw).len = (rootsOf s.st.psel s.cw).card := by
    by_contra hne
    exact Bool.false_ne_true (hchien.symm.trans ((chienStage_bmStage_uncorrectable_iff s).mpr hne))
  have hfail : forneyFails (afterChien s).sig (afterChien s).loc = false := by
    rw [afterChien_sig, afterChien_loc]
    exact forneyFails_eq_false hcount
  have hunc : (forneyStage (afterChien s)).uncorrectable = false := (forneyStage_uncorrectable _).trans hfail
  have hflag : (afterChien s).st.unc = false := by
    rw [afterChien, chienStage_st_unc, hchien, bmStage_st_unc, hbm, synStage_st_unc, Bool.or_false, Bool.or_false]
  have hdata : (forneyStage (afterChien s)).data = BitVec.ofNat 28 (registerOf s.st.psel s.cw).len := by
    simp only [forneyStage, hfail, Bool.false_eq_true, if_false]
    rw [afterChien_loc, rootCount_eq_card, hcount, rootsOf]
  have hlt : (registerOf s.st.psel s.cw).len < 2 ^ 28 :=
    (berlekampMassey_len_le _ _).trans_lt ((profile_r_le _).trans_lt (by decide))
  rw [finish_of_correctable hunc, hdata, ok_append_ofNat hlt]
  exact
    { located := hcount
      cw_eq := by
        rw [answered_cw, forneyStage_cw, hfail, if_neg Bool.false_ne_true, afterChien_cw, afterChien_psel,
          afterChien_sig, afterChien_syn, afterChien_loc, decodedWord]
      loc_eq := by rw [answered_loc, forneyStage_loc, afterChien_loc, rootsOf]
      responses_eq := by rw [answered_responses, forneyStage_responses, afterChien_responses]
      unc_eq := by rw [answered_st, forneyStage_st_unc, hunc, hflag, Bool.or_false]
      lasterr_eq := by rw [answered_st, forneyStage_st_lasterr, afterChien_lasterr] }

/-- R181: RS.DEC takes the short-circuit, is uncorrectable because L > t or because the root count is not L, or
decodes. -/
theorem decodeWord_result (s : State) :
    (IsCodeword s.st.psel s.cw ∧ decodeWord s = (synStage s).answered 0x00000000#32) ∨
    (¬IsCodeword s.st.psel s.cw ∧ EndsUncorrectable s (decodeWord s) ∧
      (s.st.psel.t < (registerOf s.st.psel s.cw).len ∨
        (registerOf s.st.psel s.cw).len ≠ (rootsOf s.st.psel s.cw).card)) ∨
    (¬IsCodeword s.st.psel s.cw ∧ (registerOf s.st.psel s.cw).len ≤ s.st.psel.t ∧ Decodes s (decodeWord s)) := by
  have hcode : (synStage s).st.sz = false → ¬IsCodeword s.st.psel s.cw := fun hsz h =>
    Bool.false_ne_true (hsz.symm.trans ((synStage_sz_iff s).mpr h))
  have hlen := bmStage_synStage_uncorrectable s
  obtain ⟨hsz, h⟩ | ⟨hsz, hbm, h⟩ | ⟨hsz, -, hchien, h⟩ | ⟨hsz, hbm, hchien, h⟩ := decodeWord_cases s
  · exact .inl ⟨(synStage_sz_iff s).mp hsz, h⟩
  · refine .inr (.inl ⟨hcode hsz, ?_, .inl (of_decide_eq_true (hlen.symm.trans hbm))⟩)
    exact h ▸ .of_stage hbm (bmStage_responses _) (bmStage_cw _) (bmStage_st_unc _)
  · refine .inr (.inl ⟨hcode hsz, ?_, .inr ((chienStage_bmStage_uncorrectable_iff s).mp hchien)⟩)
    exact h ▸ .of_stage hchien (afterChien_responses s) (afterChien_cw s) (chienStage_st_unc _)
  · refine .inr (.inr ⟨hcode hsz, Nat.le_of_not_lt (of_decide_eq_false (hlen.symm.trans hbm)), ?_⟩)
    exact h ▸ decodes_forneyStage hbm hchien

theorem differences_self (v : Vector Sym 26) : differences v v = 0 := by
  simp [differences_eq_card, differing]

/-- Settles O49. -/
theorem rsDecDichotomy : Obligations.RsDecDichotomy := by
  intro s
  refine ⟨decodeWord s, exec_rsDec s, ?_⟩
  obtain ⟨hcode, h⟩ | ⟨-, h, -⟩ | ⟨-, ht, h⟩ := decodeWord_result s
  · have hdiff : differences s.cw (decodeWord s).cw = 0 := by
      rw [h, answered_cw, synStage_cw, differences_self]
    rw [hdiff, h]
    exact .inr ⟨rfl, Nat.zero_le _, hcode, rfl, rfl⟩
  · exact .inl h
  · have hdiff := differences_decodedWord h.located
    rw [h.responses_eq, h.cw_eq, hdiff]
    exact .inr ⟨rfl, ht, decodedWord_isCodeword h.located, h.unc_eq, h.lasterr_eq⟩

theorem weight_eq_zero_iff {p : Profile} {v e : Vector Sym 26} (hv : IsCodeword p v) (he : weight e ≤ p.t) :
    weight e = 0 ↔ IsCodeword p (wordAdd v e) := by
  have hcard : (differing (wordAdd v e) v).card = weight e := by rw [differing_wordAdd, weight_eq_card]
  have ht := two_mul_t_le p
  refine ⟨fun hzero => ?_, fun hcode => ?_⟩
  · have hnone : differing (wordAdd v e) v = ∅ := Finset.card_eq_zero.mp (hcard.trans hzero)
    have hsame : wordAdd v e = v := Vector.ext fun i hi => by_contra fun hne => by
      have hmem : (⟨i, hi⟩ : Fin 26) ∈ differing (wordAdd v e) v := mem_differing.mpr hne
      rw [hnone] at hmem
      exact Finset.notMem_empty _ hmem
    rwa [hsame]
  · have hsame : wordAdd v e = v := eq_of_differences_le hcode hv (by omega)
    rw [← hcard, hsame, ← differences_eq_card, differences_self]

/-- Settles O50: with at most t errors RS.DEC does not end uncorrectable, and the word it decodes to is the codeword. -/
theorem rsDecCorrectsUpToT : Obligations.RsDecCorrectsUpToT := by
  intro s v e hv he hs
  obtain ⟨hroots, hcount⟩ := errors_located hv he
  have hword := decodedWord_wordAdd hv he
  rw [← hs] at hroots hcount hword
  refine ⟨decodeWord s, exec_rsDec s, ?_⟩
  have hlen : (registerOf s.st.psel s.cw).len = weight e := by rw [hcount, hroots, weight_eq_card]
  obtain ⟨hcode, h⟩ | ⟨-, -, hlong | hmiss⟩ | ⟨hcode, -, h⟩ := decodeWord_result s
  · have hzero : weight e = 0 := (weight_eq_zero_iff hv he).mpr (hs ▸ hcode)
    have hsame : s.cw = v := eq_of_differences_le hcode hv (by
      rw [hs, differing_wordAdd, ← weight_eq_card, hzero]
      exact Nat.zero_le _)
    rw [h, hzero]
    exact ⟨hsame, rfl, fun hne => absurd rfl hne, fun _ => rfl⟩
  · omega
  · exact absurd hcount hmiss
  · refine ⟨h.cw_eq.trans hword, by rw [h.responses_eq, hlen], fun _ pos => ?_, fun hzero => ?_⟩
    · have hloc := h.loc_eq.trans hroots
      rw [← mem_support, ← hloc, mem_marked]
    · exact absurd (hs ▸ (weight_eq_zero_iff hv he).mp hzero) hcode

end Sys2Proof.Machine
end

section
/-! PROOFS. The pixel packer (spec/44_pixel_word.md): the trits PIX.PACK2 and PIX.PACK1 write, the pixels PIX.UNPK2 and
PIX.UNPK1 read, and that the one undoes the other.

Everything goes through lists of trits. A word and the list of its 27 trits determine each other
(`wordTrits_wordOfTrits`, `wordOfTrits_wordTrits`), and so do a pixel in range and its 13 trits (`pixelTrits_pixelAt`,
`pixelTrits_injective`). The number of singleton packing holds Y and the chroma components side by side in base 3, so
its trits are those of the pixel (`singletonTrits_eq`) and both policies have one argument. -/

namespace Sys2Proof.Machine

/-! ### The digits of a sum of shifted numbers -/

theorem digits_add_mul {a m : Nat} (b n : Nat) (h : a < 3 ^ m) :
    digits (a + 3 ^ m * b) (m + n) = digits a m ++ digits b n := by
  induction m generalizing a with
  | zero =>
    obtain rfl : a = 0 := Nat.lt_one_iff.mp h
    simp [digits]
  | succ m ih =>
    have hdiv : a / 3 < 3 ^ m := Nat.div_lt_of_lt_mul (by rwa [← Nat.pow_succ'])
    have hsplit : a + 3 ^ (m + 1) * b = a + 3 * (3 ^ m * b) := by rw [Nat.pow_succ', Nat.mul_assoc]
    have hhead : tritOf (a + 3 * (3 ^ m * b)) = tritOf a := Fin.ext (Nat.add_mul_mod_self_left a 3 _)
    have htail : (a + 3 * (3 ^ m * b)) / 3 = a / 3 + 3 ^ m * b := Nat.add_mul_div_left a _ (by decide)
    rw [Nat.add_right_comm, digits_succ, digits_succ, hsplit, hhead, htail, ih hdiv, List.cons_append]

theorem digits_inj {a b n : Nat} (ha : a < 3 ^ n) (hb : b < 3 ^ n) (h : digits a n = digits b n) : a = b := by
  rw [← tritsValue_digits ha, h, tritsValue_digits hb]

/-! ### A word as a list of trits -/

/-- Trits T[off] to T[off + n − 1] of a word (R10, R208). -/
def wordTrits (w : Vector Sym 9) (off n : Nat) : List Trit := (List.range n).map fun i => wordTrit w (off + i)

@[simp] theorem length_wordTrits (w : Vector Sym 9) (off n : Nat) : (wordTrits w off n).length = n := by
  simp [wordTrits]

theorem wordTrits_add (w : Vector Sym 9) (off m n : Nat) :
    wordTrits w off (m + n) = wordTrits w off m ++ wordTrits w (off + m) n := by
  simp [wordTrits, List.range_add, Function.comp_def, Nat.add_assoc]

theorem getD_wordTrits (w : Vector Sym 9) (off : Nat) {n i : Nat} (hi : i < n) :
    (wordTrits w off n).getD i 0 = wordTrit w (off + i) := by
  simp [wordTrits, hi]

theorem wordTrits_eq_replicate {w : Vector Sym 9} {off n : Nat} (h : ∀ i < n, wordTrit w (off + i) = 0) :
    wordTrits w off n = List.replicate n 0 := by
  refine List.eq_replicate_iff.mpr ⟨length_wordTrits w off n, fun t ht => ?_⟩
  obtain ⟨i, hi, rfl⟩ := List.mem_map.mp ht
  exact h i (List.mem_range.mp hi)

theorem wordTrit_wordOfTrits (ts : List Trit) {i : Nat} (hi : i < 27) : wordTrit (wordOfTrits ts) i = ts.getD i 0 := by
  have hdig := dig_symOf_digits (fun j => ts.getD (3 * (i / 3) + j) 0) (Nat.mod_lt i (by decide))
  rw [Nat.div_add_mod] at hdig
  rw [wordTrit, wordOfTrits, coeff_ofFn _ (by omega)]
  exact hdig

theorem word_ext {v w : Vector Sym 9} (h : ∀ i < 27, wordTrit v i = wordTrit w i) : v = w := by
  refine Vector.ext fun n hn => sym_ext fun i hi => ?_
  have hdiv : (3 * n + i) / 3 = n := by omega
  have hmod : (3 * n + i) % 3 = i := by omega
  have htrit := h (3 * n + i) (by omega)
  rwa [wordTrit, wordTrit, hdiv, hmod, coeff_of_lt v hn, coeff_of_lt w hn] at htrit

theorem wordTrits_wordOfTrits {ts : List Trit} (h : ts.length = 27) : wordTrits (wordOfTrits ts) 0 27 = ts := by
  refine List.ext_getElem (by rw [length_wordTrits, h]) fun i hi hi' => ?_
  have htrit := wordTrit_wordOfTrits ts (h ▸ hi')
  simpa [wordTrits, hi'] using htrit

theorem wordOfTrits_wordTrits (w : Vector Sym 9) : wordOfTrits (wordTrits w 0 27) = w :=
  word_ext fun i hi => by rw [wordTrit_wordOfTrits _ hi, getD_wordTrits w 0 hi, Nat.zero_add]

/-! ### The value of trits of a word -/

theorem wordValue_zero (w : Vector Sym 9) (off : Nat) : wordValue w off 0 = 0 := rfl

theorem wordValue_succ (w : Vector Sym 9) (off n : Nat) :
    wordValue w off (n + 1) = (wordTrit w off).val + 3 * wordValue w (off + 1) n := by
  simp [wordValue, List.range_succ_eq_map, Function.comp_def, tritsValue, Nat.add_right_comm, Nat.add_assoc]

theorem wordValue_four (w : Vector Sym 9) (off : Nat) :
    wordValue w off 4 = (wordTrit w off).val + 3 * (wordTrit w (off + 1)).val + 9 * (wordTrit w (off + 2)).val +
      27 * (wordTrit w (off + 3)).val := by
  simp only [wordValue_succ, wordValue_zero]
  ring

theorem wordValue_five (w : Vector Sym 9) (off : Nat) :
    wordValue w off 5 = (wordTrit w off).val + 3 * (wordTrit w (off + 1)).val + 9 * (wordTrit w (off + 2)).val +
      27 * (wordTrit w (off + 3)).val + 81 * (wordTrit w (off + 4)).val := by
  rw [wordValue_succ, wordValue_four]
  ring

/-! ### A pixel as a list of trits -/

@[simp] theorem length_pixelTrits (p : Pixel) : (pixelTrits p).length = 13 := by simp [pixelTrits]

theorem chroma_wordValue_sub (w : Vector Sym 9) (off n : Nat) :
    chroma (wordValue w off n - Config.cOffset) = (wordValue w off n).toNat := by
  rw [chroma, Int.sub_add_cancel]

theorem digits_wordValue (w : Vector Sym 9) (off n : Nat) :
    digits (wordValue w off n).toNat n = wordTrits w off n := by
  have h := digits_tritsValue (wordTrits w off n)
  rwa [length_wordTrits] at h

/-- Unpacking a pixel and writing its trits again gives the trits it was read from. -/
theorem pixelTrits_pixelAt (w : Vector Sym 9) (off : Nat) : pixelTrits (pixelAt w off) = wordTrits w off 13 := by
  rw [wordTrits_add w off 9 4, wordTrits_add w off 5 4]
  simp only [pixelTrits, pixelAt, chroma_wordValue_sub, digits_wordValue]

theorem chroma_lt {c : Int} (h : c ≤ 40) : chroma c < 3 ^ 4 := by
  simp only [chroma, Config.cOffset]
  omega

theorem chroma_inj {c d : Int} (hc : -40 ≤ c) (hd : -40 ≤ d) (h : chroma c = chroma d) : c = d := by
  simp only [chroma, Config.cOffset] at h
  omega

theorem pixelTrits_injective {p q : Pixel} (hp : p.InRange) (hq : q.InRange) (h : pixelTrits p = pixelTrits q) :
    p = q := by
  obtain ⟨hpy, hpy', hpcb, hpcb', hpcr, hpcr'⟩ := hp
  obtain ⟨hqy, hqy', hqcb, hqcb', hqcr, hqcr'⟩ := hq
  obtain ⟨hleft, hcrs⟩ := List.append_inj h (by simp)
  obtain ⟨hys, hcbs⟩ := List.append_inj hleft (by simp)
  have hluma : p.y.toNat = q.y.toNat := digits_inj (by omega) (by omega) hys
  have hy : p.y = q.y := by omega
  have hcb : p.cb = q.cb := chroma_inj hpcb hqcb (digits_inj (chroma_lt hpcb') (chroma_lt hqcb') hcbs)
  have hcr : p.cr = q.cr := chroma_inj hpcr hqcr (digits_inj (chroma_lt hpcr') (chroma_lt hqcr') hcrs)
  change (⟨p.y, p.cb, p.cr⟩ : Pixel) = ⟨q.y, q.cb, q.cr⟩
  rw [hy, hcb, hcr]

theorem pixelAt_eq_of_wordTrits {w : Vector Sym 9} {off : Nat} {p : Pixel} (hp : p.InRange)
    (h : wordTrits w off 13 = pixelTrits p) : pixelAt w off = p :=
  pixelTrits_injective (pixelAt_inRange w off) hp ((pixelTrits_pixelAt w off).trans h)

theorem getD_pixelTrits_val (p : Pixel) {i : Nat} (hi : i < 13) :
    ((pixelTrits p).getD i 0).val =
      if i < 5 then digit3 p.y.toNat i
      else if i < 9 then digit3 (p.cb + 40).toNat (i - 5)
      else digit3 (p.cr + 40).toNat (i - 9) := by
  rw [pixelTrits]
  split_ifs with h5 h9
  · rw [List.getD_append _ _ _ _ (by simp; omega), List.getD_append _ _ _ _ (by simpa), getD_digits_val, if_pos h5]
  · rw [List.getD_append _ _ _ _ (by simpa), List.getD_append_right _ _ _ _ (by simp; omega), getD_digits_val,
      length_digits, if_pos (by omega)]
    rfl
  · rw [List.getD_append_right _ _ _ _ (by simp; omega), getD_digits_val, List.length_append, length_digits,
      length_digits, if_pos (by omega)]
    rfl

/-- The layout of a pixel's trits in a word that holds them from trit `off` on (R201). -/
theorem val_wordTrit_of_pixel {w : Vector Sym 9} {off i : Nat} {p : Pixel} (h : wordTrits w off 13 = pixelTrits p)
    (hle : off ≤ i) (hlt : i < off + 13) :
    (wordTrit w i).val =
      if i < off + 5 then digit3 p.y.toNat (i - off)
      else if i < off + 9 then digit3 (p.cb + 40).toNat (i - (off + 5))
      else digit3 (p.cr + 40).toNat (i - (off + 9)) := by
  obtain ⟨j, rfl⟩ := Nat.exists_eq_add_of_le hle
  have hj : j < 13 := Nat.lt_of_add_lt_add_left hlt
  rw [← getD_wordTrits w off hj, h, getD_pixelTrits_val p hj]
  simp only [Nat.add_lt_add_iff_left, Nat.add_sub_add_left, Nat.add_sub_cancel_left]

/-! ### The two layouts -/

@[simp] theorem length_pairTrits (p q : Pixel) : (pairTrits p q).length = 27 := by simp [pairTrits]

@[simp] theorem length_singletonTrits (p : Pixel) : (singletonTrits p).length = 27 := by simp [singletonTrits]

/-- R202 against R201: N is Y and the offset chroma components side by side in base 3. -/
theorem singletonTrits_eq {p : Pixel} (hp : p.InRange) : singletonTrits p = pixelTrits p ++ List.replicate 14 0 := by
  obtain ⟨hy, hy', hcb, hcb', hcr, hcr'⟩ := hp
  have hvalue : singletonValue p = p.y.toNat + 3 ^ 5 * (chroma p.cb + 3 ^ 4 * chroma p.cr) := by
    rw [singletonValue]
    ring
  rw [singletonTrits, hvalue, digits_add_mul (m := 5) _ 8 (by omega), digits_add_mul (m := 4) _ 4 (chroma_lt hcb'),
    pixelTrits, List.append_assoc (digits p.y.toNat 5) (digits (chroma p.cb) 4)]

theorem wordTrits_pair (p q : Pixel) :
    let w := wordOfTrits (pairTrits p q)
    wordTrits w 0 13 = pixelTrits p ∧ wordTrits w 13 13 = pixelTrits q ∧ wordTrit w 26 = 0 := by
  intro w
  have h : wordTrits w 0 27 = pixelTrits p ++ pixelTrits q ++ [0] := wordTrits_wordOfTrits (length_pairTrits p q)
  rw [wordTrits_add w 0 26 1, wordTrits_add w 0 13 13] at h
  obtain ⟨hpixels, hpad⟩ := List.append_inj h (by simp)
  obtain ⟨hp, hq⟩ := List.append_inj hpixels (by simp)
  exact ⟨hp, hq, List.singleton_inj.mp hpad⟩

theorem wordTrits_singleton {p : Pixel} (hp : p.InRange) :
    wordTrits (wordOfTrits (singletonTrits p)) 0 13 = pixelTrits p := by
  have h := wordTrits_wordOfTrits (length_singletonTrits p)
  rw [wordTrits_add _ 0 13 14, singletonTrits_eq hp] at h
  obtain ⟨hpixel, -⟩ := List.append_inj h (by simp)
  rwa [singletonTrits_eq hp]

theorem val_wordTrit_singleton (p : Pixel) {i : Nat} (hi : i < 27) :
    (wordTrit (wordOfTrits (singletonTrits p)) i).val = if i < 13 then digit3 (singletonValue p) i else 0 := by
  rw [wordTrit_wordOfTrits _ hi, singletonTrits]
  split
  · next h => rw [List.getD_append _ _ _ _ (by simpa), getD_digits_val, if_pos h]
  · next h =>
    rw [List.getD_append_right _ _ _ _ (by simpa using h)]
    simp [-List.reduceReplicate]

theorem singletonValue_eq {p : Pixel} (hp : p.InRange) :
    singletonValue p = (p.y + 243 * (p.cb + 40) + 19683 * (p.cr + 40)).toNat := by
  simp only [singletonValue, chroma, Config.cOffset]
  omega

theorem wordOfTrits_pair_pixelAt {w : Vector Sym 9} (hpad : wordTrit w 26 = 0) :
    wordOfTrits (pairTrits (pixelAt w 0) (pixelAt w 13)) = w := by
  have hlast : wordTrits w 26 1 = [0] := congrArg (fun t => [t]) hpad
  have hpair : pairTrits (pixelAt w 0) (pixelAt w 13) = wordTrits w 0 27 := by
    rw [wordTrits_add w 0 26 1, wordTrits_add w 0 13 13, pairTrits, pixelTrits_pixelAt, pixelTrits_pixelAt, hlast]
  rw [hpair, wordOfTrits_wordTrits]

theorem wordOfTrits_singleton_pixelAt {w : Vector Sym 9} (hpad : ∀ i < 14, wordTrit w (13 + i) = 0) :
    wordOfTrits (singletonTrits (pixelAt w 0)) = w := by
  have hsingle : singletonTrits (pixelAt w 0) = wordTrits w 0 27 := by
    rw [wordTrits_add w 0 13 14, singletonTrits_eq (pixelAt_inRange w 0), pixelTrits_pixelAt,
      wordTrits_eq_replicate hpad]
  rw [hsingle, wordOfTrits_wordTrits]

/-! ### The commands -/

theorem exec_pixPack2 {s : State} {p q : Pixel} (hs : s.px = #v[p, q]) :
    exec .pixPack2 s = .next (State.answered { s with w := wordOfTrits (pairTrits p q) } 0x00000000#32) := by
  have hp : s.readPx 0 = p := by simp [State.readPx, hs]
  have hq : s.readPx 1 = q := by simp [State.readPx, hs]
  rw [← hp, ← hq]
  rfl

theorem exec_pixPack1 {s : State} {p q : Pixel} (hs : s.px = #v[p, q]) :
    exec .pixPack1 s = .next (State.answered { s with w := wordOfTrits (singletonTrits p) } 0x00000000#32) := by
  have hp : s.readPx 0 = p := by simp [State.readPx, hs]
  rw [← hp]
  rfl

theorem set_zero_pixels (px : Vector Pixel 2) (p : Pixel) : px.set 0 p = #v[p, px[1]] := by
  refine Vector.ext fun i hi => ?_
  interval_cases i <;> simp

theorem exec_pixUnpk1 (s : State) :
    exec .pixUnpk1 s = .next (State.answered { s with px := #v[pixelAt s.w 0, s.px[1]] } 0x00000000#32) := by
  rw [← set_zero_pixels]
  rfl

theorem exec_pixUnpk2 (s : State) :
    exec .pixUnpk2 s =
      .next (State.answered { s with px := #v[pixelAt s.w 0, pixelAt s.w 13] } 0x00000000#32) := by
  have hpx : (s.px.set 0 (pixelAt s.w 0)).set 1 (pixelAt s.w 13) = #v[pixelAt s.w 0, pixelAt s.w 13] := by
    rw [set_zero_pixels]
    rfl
  rw [← hpx]
  rfl

/-! ### Balanced trits -/

theorem eq_sum_digit3 {n : Nat} (h : n < 3 ^ 4) :
    n = digit3 n 0 + 3 * digit3 n 1 + 9 * digit3 n 2 + 27 * digit3 n 3 := by
  simp only [digit3]
  omega

/-- R211: every integer in −40..40 has a sum of four balanced trits, those of its offset value less one. -/
theorem exists_balanced {c : Int} (h : -40 ≤ c) (h' : c ≤ 40) :
    ∃ b : Fin 4 → Int, (∀ i, -1 ≤ b i ∧ b i ≤ 1) ∧ c = b 0 + 3 * b 1 + 9 * b 2 + 27 * b 3 := by
  refine ⟨fun i => digit3 (c + 40).toNat i.val - 1, fun i => ?_, ?_⟩
  · simp only [digit3]
    omega
  · have hsum := eq_sum_digit3 (n := (c + 40).toNat) (by omega)
    change c = (digit3 (c + 40).toNat 0 - 1 : Int) + 3 * (digit3 (c + 40).toNat 1 - 1) +
      9 * (digit3 (c + 40).toNat 2 - 1) + 27 * (digit3 (c + 40).toNat 3 - 1)
    omega

/-- R211: a sum of four balanced trits determines them, so they are the trits of the offset value less one. -/
theorem wordTrit_of_balanced {w : Vector Sym 9} {off : Nat} {b : Fin 4 → Int} (hb : ∀ i, -1 ≤ b i ∧ b i ≤ 1)
    (h : wordValue w off 4 - Config.cOffset = b 0 + 3 * b 1 + 9 * b 2 + 27 * b 3) (i : Fin 4) :
    ((wordTrit w (off + i.val)).val : Int) = b i + 1 := by
  rw [wordValue_four, Config.cOffset] at h
  have h0 := hb 0
  have h1 := hb 1
  have h2 := hb 2
  have h3 := hb 3
  obtain ⟨e0, e1, e2, e3⟩ : ((wordTrit w off).val : Int) = b 0 + 1 ∧ ((wordTrit w (off + 1)).val : Int) = b 1 + 1 ∧
      ((wordTrit w (off + 2)).val : Int) = b 2 + 1 ∧ ((wordTrit w (off + 3)).val : Int) = b 3 + 1 := by omega
  fin_cases i
  exacts [e0, e1, e2, e3]

/-! ### The statements -/

/-- Settles O57: the word PIX.PACK2 writes holds the trits of the one pixel and then those of the other. -/
theorem pixPackLayouts : Obligations.PixPackLayouts := by
  intro s p q hs hp hq
  refine ⟨⟨_, exec_pixPack2 hs, fun i hi => ?_⟩, ⟨_, exec_pixPack1 hs, fun i hi => ?_⟩⟩
  · obtain ⟨hfirst, hsecond, hpad⟩ := wordTrits_pair p q
    rcases Nat.lt_or_ge i 13 with h13 | h13
    · rw [if_pos h13]
      simpa [State.trit] using val_wordTrit_of_pixel hfirst (Nat.zero_le i) h13
    · rw [if_neg (show ¬ i < 5 by omega), if_neg (show ¬ i < 9 by omega), if_neg (Nat.not_lt.mpr h13)]
      rcases Nat.lt_or_ge i 26 with h26 | h26
      · rw [if_pos h26]
        exact val_wordTrit_of_pixel hsecond h13 h26
      · obtain rfl : i = 26 := by omega
        exact congrArg Fin.val hpad
  · exact (val_wordTrit_singleton p hi).trans (by rw [singletonValue_eq hp])

/-- Settles O58: the sums of R208 are the values of the pixel's trits, which `pixelAt_inRange` bounds. -/
theorem pixUnpackValues : Obligations.PixUnpackValues := by
  intro s
  have hp := pixelAt_inRange s.w 0
  have hq := pixelAt_inRange s.w 13
  have h1 := exec_pixUnpk1 s
  have h2 := exec_pixUnpk2 s
  simp only [pixelAt, wordValue_four, wordValue_five] at hp hq h1 h2
  exact ⟨hp, hq, h2, h1⟩

/-- Unpacking the word PIX.PACK2 writes gives the pixels it was written from. -/
theorem pixelAt_pair {p q : Pixel} (hp : p.InRange) (hq : q.InRange) :
    pixelAt (wordOfTrits (pairTrits p q)) 0 = p ∧ pixelAt (wordOfTrits (pairTrits p q)) 13 = q := by
  obtain ⟨hfirst, hsecond, -⟩ := wordTrits_pair p q
  exact ⟨pixelAt_eq_of_wordTrits hp hfirst, pixelAt_eq_of_wordTrits hq hsecond⟩

/-- Settles O59: a pixel in range is the one read from its trits, and a word is the one written from its trits. -/
theorem pixelPackingReverses : Obligations.PixelPackingReverses := by
  refine ⟨fun s p q hs hp hq => ⟨?_, ?_⟩, fun s hpad => ?_, fun s hpad => ?_⟩
  · obtain ⟨hfirst, hsecond⟩ := pixelAt_pair hp hq
    obtain ⟨-, -, hpad⟩ := wordTrits_pair p q
    refine ⟨_, _, exec_pixPack2 hs, congrArg Fin.val hpad, exec_pixUnpk2 _, ?_⟩
    simp [hs, hfirst, hsecond]
  · have hpixel := pixelAt_eq_of_wordTrits hp (wordTrits_singleton hp)
    refine ⟨_, _, exec_pixPack1 hs, fun i hi hpad => ?_, exec_pixUnpk1 _, ?_⟩
    · exact (val_wordTrit_singleton p hi).trans (if_neg (Nat.not_lt.mpr hpad))
    · simp [hs, hpixel]
  · refine ⟨_, _, exec_pixUnpk2 s, exec_pixPack2 rfl, ?_⟩
    exact wordOfTrits_pair_pixelAt (Fin.ext hpad)
  · refine ⟨_, _, exec_pixUnpk1 s, exec_pixPack1 rfl, ?_⟩
    exact wordOfTrits_singleton_pixelAt fun i hi => Fin.ext (hpad (13 + i) (by omega) (by omega))

/-- R211 for one pixel of a word: its chroma trits and its Y. -/
theorem trits_of_pixelAt {w : Vector Sym 9} {off : Nat} {p : Pixel} {b : Fin 4 → Int}
    (h : pixelAt w off = p) (hb : ∀ i, -1 ≤ b i ∧ b i ≤ 1) :
    (p.cb = b 0 + 3 * b 1 + 9 * b 2 + 27 * b 3 → ∀ i : Fin 4, ((wordTrit w (off + 5 + i.val)).val : Int) = b i + 1) ∧
    (p.cr = b 0 + 3 * b 1 + 9 * b 2 + 27 * b 3 → ∀ i : Fin 4, ((wordTrit w (off + 9 + i.val)).val : Int) = b i + 1) ∧
    p.y = wordValue w off 5 := by
  subst h
  exact ⟨wordTrit_of_balanced hb, wordTrit_of_balanced hb, rfl⟩

/-- Settles O60: the chroma PIX.UNPK2 would read from the packed word is the component, so its trits are determined. -/
theorem chromaTritsAreBalanced : Obligations.ChromaTritsAreBalanced := by
  refine ⟨fun c => ⟨fun ⟨h, h'⟩ => exists_balanced h h', ?_⟩, fun s p q b hs hp hq hb => ?_⟩
  · rintro ⟨b, hb, rfl⟩
    have h0 := hb 0
    have h1 := hb 1
    have h2 := hb 2
    have h3 := hb 3
    omega
  · obtain ⟨hfirst, hsecond⟩ := pixelAt_pair hp hq
    obtain ⟨hpcb, hpcr, hpy⟩ := trits_of_pixelAt hfirst hb
    obtain ⟨hqcb, hqcr, hqy⟩ := trits_of_pixelAt hsecond hb
    exact ⟨_, exec_pixPack2 hs, hpcb, hpcr, hqcb, hqcr, hpy.trans (wordValue_five _ 0), hqy.trans (wordValue_five _ 13)⟩

end Sys2Proof.Machine
end

section
/-! PROOFS. The ternary CRC-12 register (spec/45_crc12.md): what each CRC command does to it, the CRC of a sum of
messages, and that a single changed trit changes the CRC.

The commands that compute a CRC leave `messageCrc`, the register fed with the message and the twelve zeros from the zero
register (`execAll_crcCommands`), so the statements about messages are about `crcFeed`. One step is additive in the
register and the trit together (`crcStep_add`), which makes the CRC linear, and it loses nothing: with the trit known it
is injective in the register (`crcStep_injective`) and with the register known injective in the trit
(`crcStep_right_injective`). So two messages that differ in one trit have different registers after it, and equal trits
keep them different. -/

namespace Sys2Proof.Machine

/-! ### The step of the register -/

/-- The form in which the statements read a trit of the register. -/
theorem crc_getD_toList (reg : Vector Trit 12) {i : Nat} (h : i < 12) : reg.toList.getD i 0 = reg[i] := by
  simp [h]

theorem val_crcFeedback (reg : Vector Trit 12) (t : Trit) : (crcFeedback reg t).val = (t.val + reg[11].val) % 3 :=
  Fin.val_add _ _

theorem crcFeedback_add (v w : Vector Trit 12) (x y : Trit) :
    crcFeedback (v + w) (x + y) = crcFeedback v x + crcFeedback w y := by
  simp only [crcFeedback, Vector.getElem_add, add_add_add_comm]

/-- Every position adds old trits and the feedback, which is a sum itself (R221). -/
theorem crcStep_add (v w : Vector Trit 12) (x y : Trit) : crcStep (v + w) (x + y) = crcStep v x + crcStep w y := by
  ext1 i hi
  rw [Vector.getElem_add]
  simp only [crcStep_getElem, crcFeedback_add, Vector.getElem_add]
  split_ifs
  · rfl
  · exact add_add_add_comm _ _ _ _
  · rfl

theorem crcStep_zero : crcStep 0 0 = 0 := by decide

/-- The feedback stands in the new position 0; with it, each old trit is read off the position above (R221). -/
theorem crcStep_injective (t : Trit) : Function.Injective fun reg => crcStep reg t := by
  intro v w h
  have hstep (i : Nat) (hi : i < 12) : (crcStep v t)[i] = (crcStep w t)[i] := congrArg (fun reg => reg[i]) h
  have hfb : crcFeedback v t = crcFeedback w t := hstep 0 (by decide)
  ext1 i hi
  by_cases htop : i = 11
  · subst htop
    exact add_left_cancel hfb
  · have hnext := hstep (i + 1) (by omega)
    simp only [crcStep_getElem, hfb, Nat.add_one_ne_zero, if_false, Nat.add_sub_cancel] at hnext
    split_ifs at hnext
    · exact add_right_cancel hnext
    · exact hnext

theorem crcStep_right_injective (reg : Vector Trit 12) : Function.Injective (crcStep reg) := fun x y h =>
  add_right_cancel (show crcFeedback reg x = crcFeedback reg y from congrArg (fun reg => reg[0]) h)

/-! ### Feeding a list of trits -/

theorem crcFeed_append (reg : Vector Trit 12) (ts us : List Trit) :
    crcFeed reg (ts ++ us) = crcFeed (crcFeed reg ts) us := List.foldl_append

theorem crcFeed_add {ts us : List Trit} (h : ts.length = us.length) (v w : Vector Trit 12) :
    crcFeed (v + w) (List.zipWith (· + ·) ts us) = crcFeed v ts + crcFeed w us := by
  induction ts generalizing us v w with
  | nil =>
    obtain rfl := List.length_eq_zero_iff.mp h.symm
    rfl
  | cons t ts ih =>
    obtain _ | ⟨u, us⟩ := us
    · contradiction
    · simp only [List.zipWith_cons_cons, crcFeed_cons, crcStep_add]
      exact ih (Nat.succ.inj h) _ _

theorem crcFeed_replicate_zero (k : Nat) : crcFeed 0 (List.replicate k 0) = 0 := by
  induction k with
  | zero => rfl
  | succ k ih => rw [List.replicate_succ, crcFeed_cons, crcStep_zero, ih]

theorem crcFeed_injective (ts : List Trit) : Function.Injective fun reg => crcFeed reg ts := by
  induction ts with
  | nil => exact Function.injective_id
  | cons t ts ih => exact ih.comp (crcStep_injective t)

/-! ### The CRC of a message -/

/-- R222: the register after the message and the twelve zeros, from the zero register. -/
def messageCrc (m : List Trit) : Vector Trit 12 := crcFeed 0 (m ++ List.replicate Config.crcFlush 0)

theorem messageCrc_add {m n : List Trit} (h : m.length = n.length) :
    messageCrc (List.zipWith (· + ·) m n) = messageCrc m + messageCrc n := by
  have hlen : (m ++ List.replicate Config.crcFlush (0 : Trit)).length =
      (n ++ List.replicate Config.crcFlush (0 : Trit)).length := by
    rw [List.length_append, List.length_append, h]
  have hfeed := crcFeed_add hlen 0 0
  rwa [Vector.add_zero add_zero, List.zipWith_append h, List.zipWith_replicate, min_self, add_zero] at hfeed

theorem messageCrc_replicate_zero (k : Nat) : messageCrc (List.replicate k 0) = 0 := by
  rw [messageCrc, ← List.replicate_add, crcFeed_replicate_zero]

/-- Different trits after the same ones part the registers, and nothing fed afterwards joins them again. -/
theorem messageCrc_ne_of_ne (before after : List Trit) {x y : Trit} (h : x ≠ y) :
    messageCrc (before ++ x :: after) ≠ messageCrc (before ++ y :: after) := by
  simp only [messageCrc, List.append_assoc, List.cons_append, crcFeed_append _ before, crcFeed_cons]
  exact (crcFeed_injective _).ne ((crcStep_right_injective _).ne h)

/-! ### The CRC commands -/

/-- The commands that feed a list of trits, one CRC.TRIT each. -/
def tritCommands (ts : List Trit) : List Instr := ts.map fun t => .crcTrit (BitVec.ofNat 2 t.val)

theorem exec_crcInit (s : State) : exec .crcInit s = .next (State.answered { s with crc := 0 } 0x00000000#32) := rfl

theorem exec_crcFin (s : State) :
    exec .crcFin s = .next
      (State.answered { s with crc := crcFeed s.crc (List.replicate Config.crcFlush 0) } 0x00000000#32) := rfl

theorem exec_crcTrit_of_val {t : BitVec 2} {d : Trit} (h : t.toNat = d.val) (s : State) :
    exec (.crcTrit t) s = .next (State.answered { s with crc := crcStep s.crc d } 0x00000000#32) :=
  execCrcTrit_of_some (tritOperand_eq_some.mpr h) s

theorem exec_crcSym_of_val {a : BitVec 5} {x : Sym} (h : a.toNat = x.val) (s : State) :
    exec (.crcSym a) s = .next
      (State.answered { s with crc := crcFeed s.crc [dig x 0, dig x 1, dig x 2] } 0x00000000#32) :=
  execCrcSym_of_some (symOperand_eq_some.mpr h) s

theorem execAll_cons {i : Instr} {s t : State} (h : exec i s = .next t) (is : List Instr) :
    execAll (i :: is) s = execAll is t := by simp only [execAll, h]

theorem execAll_append {is : List Instr} {s t : State} (h : execAll is s = .next t) (js : List Instr) :
    execAll (is ++ js) s = execAll js t := by
  induction is generalizing s with
  | nil =>
    obtain rfl := Host.Outcome.next.inj h
    rfl
  | cons i is ih =>
    obtain ⟨u, hu⟩ := exists_exec_eq_next i s
    rw [List.cons_append, execAll_cons hu]
    rw [execAll_cons hu] at h
    exact ih h

theorem execAll_tritCommands (ts : List Trit) (s : State) :
    ∃ t, execAll (tritCommands ts) s = .next t ∧ t.crc = crcFeed s.crc ts := by
  induction ts generalizing s with
  | nil => exact ⟨s, rfl, rfl⟩
  | cons d ts ih =>
    obtain ⟨t, ht, hcrc⟩ := ih (State.answered { s with crc := crcStep s.crc d } 0x00000000#32)
    exact ⟨t, (execAll_cons (exec_crcTrit_of_val (toNat_ofNat_trit d) s) _).trans ht, hcrc⟩

/-- The commands of R222 leave the CRC of the message, whatever the register held (R296). -/
theorem execAll_crcCommands (m : List Trit) (s : State) :
    ∃ t, execAll (crcCommands m) s = .next t ∧ t.crc = messageCrc m := by
  obtain ⟨u, hu, hcrc⟩ := execAll_tritCommands m (State.answered { s with crc := 0 } 0x00000000#32)
  have hfed : execAll (.crcInit :: tritCommands m) s = .next u := (execAll_cons (exec_crcInit s) _).trans hu
  refine ⟨_, (execAll_append hfed _).trans (execAll_cons (exec_crcFin u) _), ?_⟩
  rw [messageCrc, crcFeed_append]
  exact congrArg (crcFeed · _) hcrc

/-! ### The statements about one command -/

/-- Settles O51: each branch of R221 is a position of `crc_step`. -/
theorem crcTritSteps : Obligations.CrcTritSteps := by
  intro t s
  split
  case isTrue h =>
    refine ⟨crcStep s.crc ⟨t.toNat, by omega⟩, exec_crcTrit_of_val rfl s, fun i => ?_⟩
    rw [Fin.getElem_fin, crcStep_getElem, crc_getD_toList s.crc (show i.val - 1 < 12 by omega)]
    split_ifs
    · exact val_crcFeedback _ _
    · rw [Fin.val_add, val_crcFeedback]
    · rfl
  case isFalse h =>
    exact (execCrcTrit_of_none (tritOperand_eq_none.mpr (by omega)) s).trans (congrArg _ (raise_badOperand s))

/-- Settles O53: lane i of the answer is trit i, and the four bits above are the two lanes past the end. -/
theorem crcInitAndRead : Obligations.CrcInitAndRead := by
  refine fun s => ⟨rfl, tritsData s.crc.toList, rfl, fun i => ?_, ?_⟩
  · rw [dataLane_tritsData _ (by omega), toNat_ofNat_trit, crc_getD_toList s.crc i.isLt]
    rfl
  · have hpast (i : Nat) (hi : 12 ≤ i) (hi' : i < 14) : dataLane (tritsData s.crc.toList) i = 0 := by
      rw [dataLane_tritsData _ hi', List.getD_eq_default _ _ (by simpa using hi)]
      rfl
    calc (tritsData s.crc.toList).extractLsb' 24 4
        = dataLane (tritsData s.crc.toList) 13 ++ dataLane (tritsData s.crc.toList) 12 :=
          (BitVec.extractLsb'_append_extractLsb'_eq_extractLsb' (start₁ := 24) (len₁ := 2) rfl).symm
      _ = 0 := by
          rw [hpast 13 (by decide) (by decide), hpast 12 (by decide) (by decide)]
          rfl

/-- Settles O52: the three digits of a symbol and the twelve zeros are lists of trits fed by CRC.TRIT. -/
theorem crcSymAndFinAreTrits : Obligations.CrcSymAndFinAreTrits := by
  refine ⟨fun a s => ?_, fun s => ?_⟩
  · split
    case isTrue h =>
      obtain ⟨x, hx⟩ : ∃ x : Sym, a.toNat = x.val := ⟨⟨a.toNat, by omega⟩, rfl⟩
      obtain ⟨t, ht, hcrc⟩ := execAll_tritCommands [dig x 0, dig x 1, dig x 2] s
      exact ⟨t, hx ▸ ht, hcrc ▸ exec_crcSym_of_val hx s⟩
    case isFalse h =>
      exact (execCrcSym_of_none (symOperand_eq_none.mpr (by omega)) s).trans (congrArg _ (raise_badOperand s))
  · obtain ⟨t, ht, hcrc⟩ := execAll_tritCommands (List.replicate Config.crcFlush 0) s
    exact ⟨t, ht, hcrc ▸ exec_crcFin s⟩

/-! ### The statements about messages -/

/-- Settles O54: the CRC of a message is additive, and zeros leave the zero register as it is. -/
theorem crcIsLinear : Obligations.CrcIsLinear := by
  refine ⟨fun m n s hlen => ?_, fun k s => ?_⟩
  · obtain ⟨t, ht, htcrc⟩ := execAll_crcCommands m s
    obtain ⟨u, hu, hucrc⟩ := execAll_crcCommands n s
    obtain ⟨v, hv, hvcrc⟩ := execAll_crcCommands (List.zipWith (· + ·) m n) s
    refine ⟨t, u, v, ht, hu, hv, fun i => ?_⟩
    rw [hvcrc, htcrc, hucrc, messageCrc_add hlen]
    exact Vector.getElem_add _ _ _ _
  · obtain ⟨t, ht, hcrc⟩ := execAll_crcCommands (List.replicate k 0) s
    refine ⟨t, ht, fun i => ?_⟩
    rw [hcrc, messageCrc_replicate_zero]
    exact Vector.getElem_zero _ _

/-- Settles O55: from the changed trit on the two registers stay different. -/
theorem crcDetectsSingleTrit : Obligations.CrcDetectsSingleTrit := by
  intro before after x y s hxy
  obtain ⟨t, ht, htcrc⟩ := execAll_crcCommands (before ++ x :: after) s
  obtain ⟨u, hu, hucrc⟩ := execAll_crcCommands (before ++ y :: after) s
  refine ⟨t, u, ht, hu, ?_⟩
  rw [htcrc, hucrc]
  exact messageCrc_ne_of_ne before after hxy

end Sys2Proof.Machine
end

section
/-! PROOFS. The system commands NOP and STAT.CLR (spec/46_system_buffer.md R240, R242).

Both end in the same OK response with zero data, which leaves ST.LASTERR as it stands (`respond_ok_zero`). So NOP only
answers, and STAT.CLR leaves the acknowledged state: ST.LASTERR stays cleared because the response comes after. -/

namespace Sys2Proof.Machine

/-- R34, R75: an OK response with zero data is the zero word and writes no status field. -/
theorem respond_ok_zero (s : State) : s.respond .ok 0 = s.answered 0x00000000#32 :=
  respond_ok_eq_answered s 0

theorem exec_nop (s : State) : exec .nop s = .next (s.answered 0x00000000#32) :=
  congrArg Host.Outcome.next (respond_ok_zero s)

theorem exec_statClr (s : State) : exec .statClr s = .next (s.acknowledge.answered 0x00000000#32) :=
  congrArg Host.Outcome.next (respond_ok_zero s.acknowledge)

/-- Settles O22: `State.acknowledge` is the update of ST that the statement writes out. -/
theorem nopAndStatClr : Obligations.NopAndStatClr :=
  fun s => ⟨exec_nop s, exec_statClr s⟩

end Sys2Proof.Machine
end

section
/-! PROOFS. Exceptions (spec/60_exceptions.md): which commands fault, with which code, and what a fault changes.

A command faults exactly when its operand fields are not well-formed, whatever the state. The two halves are
`endsInFault_of_not_wellFormed` and `endsInNoFault_of_wellFormed`, each by the rule of every command. The decoder
commands alone can end `RsUncorrectable`, which is no fault; so a fault answers zero data and changes ST.LASTERR only.
-/

namespace Sys2Proof.Machine

/-! ### The operand checks as bounds -/

theorem symbolField_iff {a : BitVec 5} : WellFormed.symbolField a = true ↔ a.toNat ≤ 26 := decide_eq_true_iff

theorem symbolFields_iff {a b : BitVec 5} :
    (WellFormed.symbolField a && WellFormed.symbolField b) = true ↔ a.toNat ≤ 26 ∧ b.toNat ≤ 26 := by
  rw [Bool.and_eq_true, symbolField_iff, symbolField_iff]

theorem tritField_iff {t : BitVec 2} : WellFormed.tritField t = true ↔ t.toNat ≤ 2 := decide_eq_true_iff

theorem profileField_iff {p : BitVec 8} : WellFormed.profileField p = true ↔ p.toNat ≤ 3 := decide_eq_true_iff

theorem bufferAddress_iff {buf : BitVec 3} {idx : BitVec 5} :
    WellFormed.bufferAddress buf idx = true ↔ idx.toNat < WellFormed.bufferLength buf := decide_eq_true_iff

/-- An address of the buffer space is an index within one of the six buffers (R51). -/
theorem exists_id_of_bufferAddress {buf : BitVec 3} {idx : BitVec 5} (h : WellFormed.bufferAddress buf idx = true) :
    ∃ b : BufId, buf = b.id ∧ idx.toNat < b.length := by
  have hlt := bufferAddress_iff.mp h
  have hid : ∀ buf : BitVec 3, WellFormed.bufferLength buf = 0 ∨ ∃ b ∈ [BufId.cw, .syn, .sig, .omg, .w, .loc],
      buf = b.id := by decide
  obtain hzero | ⟨b, -, rfl⟩ := hid buf
  · omega
  · exact ⟨b, rfl, bufferLength_id b ▸ hlt⟩

theorem bufferValue_id_iff {b : BufId} {sym : BitVec 5} :
    WellFormed.bufferValue b.id sym = true ↔ sym.toNat ≤ 26 ∧ (b = .loc → sym.toNat ≤ 1) := by
  cases b <;> simp [WellFormed.bufferValue, symbolField_iff, BufId.id]

/-! ### Commands with a refused operand -/

/-- The command ends in its fault: ST.LASTERR takes the code, and the response is the code with zero data (R262). -/
def EndsInFault (i : Instr) (s : State) : Prop :=
  exec i s = .next (s.faulted (faultOf i) ((faultOf i).code ++ 0#28))

theorem EndsInFault.of_raise {i : Instr} {s : State} {f : ResultCode} (hi : faultOf i = f) (hf : f ≠ .ok)
    (h : exec i s = .next (s.raise f)) : EndsInFault i s := by
  rwa [EndsInFault, hi, ← raise_eq_faulted s hf]

/-- `EndsInFault.of_raise` over the response as a literal word. -/
theorem EndsInFault.of_badOperand {i : Instr} {s : State} (hi : faultOf i = .badOperand)
    (h : exec i s = .next (s.faulted .badOperand 0x20000000#32)) : EndsInFault i s :=
  .of_raise hi (by decide) (h.trans (congrArg _ (raise_badOperand s).symm))

/-- `EndsInFault.of_raise` over the response as a literal word. -/
theorem EndsInFault.of_outOfRange {i : Instr} {s : State} (hi : faultOf i = .outOfRange)
    (h : exec i s = .next (s.faulted .outOfRange 0x30000000#32)) : EndsInFault i s :=
  .of_raise hi (by decide) (h.trans (congrArg _ (raise_outOfRange s).symm))

/-- R261, R265: a refused operand value ends in the fault of the first failing check, whatever the state. -/
theorem endsInFault_of_not_wellFormed {i : Instr} (h : ¬i.wellFormed = true) (s : State) : EndsInFault i s := by
  cases i with
  | nop | statRd | statClr | reset | tritB2u | tritU2b | gfPowa | rsEnc | rsSyn | rsBm | rsChien | rsForney | rsDec
  | crcInit | crcFin | crcRd | pixLd | pixRd | pixPack2 | pixPack1 | pixUnpk2 | pixUnpk1 => exact absurd rfl h
  | pack243 k t => exact .of_badOperand rfl (exec_pack243_badOperand (mt wellFormed_pack243_iff.mpr h) s)
  | unpk243 k byte => exact .of_badOperand rfl (exec_unpk243_badOperand (mt wellFormed_unpk243_iff.mpr h) s)
  | gfAdd a b => exact .of_badOperand rfl (fieldOp_of_not_le Machine.gfAdd (mt symbolFields_iff.mpr h) s)
  | gfSub a b => exact .of_badOperand rfl (fieldOp_of_not_le Machine.gfSub (mt symbolFields_iff.mpr h) s)
  | gfMul a b => exact .of_badOperand rfl (fieldOp_of_not_le Machine.gfMul (mt symbolFields_iff.mpr h) s)
  | gfInv a =>
    have ha : ¬a.toNat ≤ 26 := mt symbolField_iff.mpr h
    exact .of_raise (f := .badOperand) rfl (by decide)
      (execGfInv_of_none (symOperand_eq_none.mpr (by omega)) s)
  | crcSym a =>
    have ha : ¬a.toNat ≤ 26 := mt symbolField_iff.mpr h
    exact .of_raise (f := .badOperand) rfl (by decide)
      (execCrcSym_of_none (symOperand_eq_none.mpr (by omega)) s)
  | crcTrit t =>
    have ht : ¬t.toNat ≤ 2 := mt tritField_iff.mpr h
    exact .of_raise (f := .badOperand) rfl (by decide)
      (execCrcTrit_of_none (tritOperand_eq_none.mpr (by omega)) s)
  | rsCfg p =>
    have hp : ¬p.toNat ≤ 3 := mt profileField_iff.mpr h
    exact .of_raise (f := .invalidProfile) rfl (by decide)
      (execRsCfg_of_none (profileOperand_eq_none.mpr (by omega)) s)
  | bufRd buf idx => exact .of_outOfRange rfl (exec_bufRd_outOfRange (Nat.not_lt.mp (mt bufferAddress_iff.mpr h)) s)
  | bufWr buf idx sym =>
    by_cases haddress : WellFormed.bufferAddress buf idx = true
    · obtain ⟨b, rfl, hidx⟩ := exists_id_of_bufferAddress haddress
      have hvalue : ¬WellFormed.bufferValue b.id sym = true := fun hv =>
        h (Bool.and_eq_true_iff.mpr ⟨haddress, hv⟩)
      exact .of_badOperand (if_pos haddress) (exec_bufWr_badOperand hidx (mt bufferValue_id_iff.mpr hvalue) s)
    · have hidx := Nat.not_lt.mp (mt bufferAddress_iff.mpr haddress)
      exact .of_outOfRange (if_neg haddress) (exec_bufWr_outOfRange hidx sym s)

/-! ### Commands with accepted operands -/

/-- From `s` the command `i` ends OK, or `RsUncorrectable` where R261 lists it. -/
def EndsInNoFault (i : Instr) (s : State) : Prop :=
  ∃ (t : State) (c : ResultCode) (d : Data), exec i s = .next t ∧ t.responses = s.responses ++ [c.code ++ d] ∧
    (c = .ok ∨ c = .rsUncorrectable ∧ mayBeUncorrectable i = true)

theorem EndsInNoFault.of_respond {i : Instr} {s u : State} {d : Data} (h : exec i s = .next (u.respond .ok d))
    (hr : u.responses = s.responses) : EndsInNoFault i s :=
  ⟨_, .ok, d, h, by rw [respond_responses, hr, responseWord], .inl rfl⟩

/-- A command that only answers a number. -/
theorem EndsInNoFault.of_answered {i : Instr} {s : State} {n : Nat} (hn : n < 2 ^ 28)
    (h : exec i s = .next (s.answered (BitVec.ofNat 32 n))) : EndsInNoFault i s :=
  .of_respond (h.trans (by rw [respond_ok_eq_answered, ok_append_ofNat hn])) rfl

theorem EndsInNoFault.of_decoder {i : Instr} {s t : State} (h : exec i s = .next t)
    (hends : EndsOk s t ∨ EndsUncorrectable s t) (hi : mayBeUncorrectable i = true) : EndsInNoFault i s := by
  obtain ⟨d, hd⟩ | ⟨d, hd, -⟩ := hends
  · exact ⟨t, .ok, d, h, hd, .inl rfl⟩
  · exact ⟨t, .rsUncorrectable, d, h, hd, .inr ⟨rfl, hi⟩⟩

theorem EndsInNoFault.of_fieldOp {i : Instr} {op : Sym → Sym → Sym} {a b : BitVec 5} {s : State}
    (h : exec i s = fieldOp op a b s)
    (hab : (WellFormed.symbolField a && WellFormed.symbolField b) = true) : EndsInNoFault i s := by
  obtain ⟨ha, hb⟩ := symbolFields_iff.mp hab
  exact .of_answered (by omega) (h.trans (fieldOp_of_le op ha hb s))

/-- R260, R261: accepted operand values end in no fault, whatever the state. -/
theorem endsInNoFault_of_wellFormed {i : Instr} (h : i.wellFormed = true) (s : State) : EndsInNoFault i s := by
  cases i with
  | nop | statRd | statClr | reset | tritB2u | tritU2b | gfPowa | rsEnc | rsSyn | crcInit | crcFin
  | crcRd | pixLd | pixRd | pixPack2 | pixPack1 | pixUnpk2 | pixUnpk1 => exact .of_respond rfl rfl
  | rsBm => exact .of_decoder rfl (bmStage_ends s) rfl
  | rsChien => exact .of_decoder rfl (chienStage_ends s) rfl
  | rsForney => exact .of_decoder rfl (forneyStage_ends s) rfl
  | rsDec => exact .of_decoder rfl (decodeWord_ends s) rfl
  | pack243 k t =>
    obtain ⟨⟨hk, hk5⟩, hgroup⟩ := wellFormed_pack243_iff.mp h
    obtain ⟨ts, hlen, rfl⟩ := exists_tritLanes_of_holdsGroup hk5 hgroup
    have hlt := tritsValue_lt_of_length_le (hlen ▸ hk5)
    exact .of_answered (by omega) (exec_pack243_tritLanes hk hk5 hlen s)
  | unpk243 k byte =>
    obtain ⟨hk, hk5, hbyte⟩ := wellFormed_unpk243_iff.mp h
    exact .of_respond (exec_unpk243_digits hk hk5 hbyte s) rfl
  | gfAdd a b => exact .of_fieldOp (op := Machine.gfAdd) rfl h
  | gfSub a b => exact .of_fieldOp (op := Machine.gfSub) rfl h
  | gfMul a b => exact .of_fieldOp (op := Machine.gfMul) rfl h
  | gfInv a =>
    have ha : a.toNat ≤ 26 := symbolField_iff.mp h
    exact .of_respond (execGfInv_of_some (symOperand_eq_some (v := ⟨a.toNat, by omega⟩).mpr rfl) s) rfl
  | crcSym a =>
    have ha : a.toNat ≤ 26 := symbolField_iff.mp h
    exact .of_respond (execCrcSym_of_some (symOperand_eq_some (v := ⟨a.toNat, by omega⟩).mpr rfl) s) rfl
  | crcTrit t =>
    have ht : t.toNat ≤ 2 := tritField_iff.mp h
    exact .of_respond (execCrcTrit_of_some (tritOperand_eq_some (v := ⟨t.toNat, by omega⟩).mpr rfl) s) rfl
  | rsCfg p =>
    have hp : p.toNat ≤ 3 := profileField_iff.mp h
    have hsome : profileOperand p ≠ none := mt profileOperand_eq_none.mp (by omega)
    obtain ⟨q, hq⟩ := Option.ne_none_iff_exists'.mp hsome
    exact .of_respond (execRsCfg_of_some hq s) rfl
  | bufRd buf idx =>
    obtain ⟨b, rfl, hidx⟩ := exists_id_of_bufferAddress h
    have hread := exec_bufRd_ok (s := s) hidx rfl
    rw [BitVec.ofNat_toNat, BitVec.setWidth_eq] at hread
    exact .of_answered (by omega) hread
  | bufWr buf idx sym =>
    obtain ⟨haddress, hvalue⟩ := Bool.and_eq_true_iff.mp h
    obtain ⟨b, rfl, hidx⟩ := exists_id_of_bufferAddress haddress
    obtain ⟨hsym, hloc⟩ := bufferValue_id_iff.mp hvalue
    exact .of_respond (exec_bufWr_ok hidx hsym hloc s) (memWrite_responses s b _ _)

/-! ### The statements -/

/-- Settles O15: the two halves, by whether the operands are well-formed. -/
theorem faultsAreTheRefusedOperands : Obligations.FaultsAreTheRefusedOperands := by
  intro i s
  split
  case isTrue h => exact endsInNoFault_of_wellFormed h s
  case isFalse h => exact endsInFault_of_not_wellFormed h s

/-- R264: every command word gives a next state, so the next command runs. -/
theorem exists_runWord_eq_next (w : Word) (s : State) : ∃ t, runWord w s = .next t := by
  obtain ⟨t, -, -, ht, -, -⟩ := runWord_answersOnce w s
  exact ⟨t, ht⟩

/-- Settles O14: a fault is an illegal word or a refused operand, and both end in `State.faulted` with zero data. -/
theorem faultChangesOnlyLasterr : Obligations.FaultChangesOnlyLasterr := by
  intro w s
  cases hw : decode w with
  | error e =>
    exact ⟨_, .illegalCommand, 0, runWord_of_error hw s, rfl, fun _ =>
      ⟨raise_eq_faulted s (by decide), fun v => exists_runWord_eq_next v _⟩⟩
  | ok i =>
    by_cases h : i.wellFormed = true
    · obtain ⟨t, c, d, ht, hr, hc⟩ := endsInNoFault_of_wellFormed h s
      have hnofault : ¬c.isFault = true := by
        obtain rfl | ⟨rfl, -⟩ := hc <;> decide
      exact ⟨t, c, d, (runWord_of_ok hw s).trans ht, hr, fun hf => absurd hf hnofault⟩
    · exact ⟨_, faultOf i, 0, (runWord_of_ok hw s).trans (endsInFault_of_not_wellFormed h s), rfl, fun _ =>
        ⟨rfl, fun v => exists_runWord_eq_next v _⟩⟩

end Sys2Proof.Machine
end
